-- ==== Sys2Proof/Word.lean ====
section
/-!
DEFINITION. The word types of the block (00_scope.md R17, R18): host data, word addresses, the canonical
transaction word and the pixel index.
-/

namespace Sys2Proof

/-- A 32-bit host data word (R17). -/
abbrev Word := BitVec 32

/-- An 8-bit host word address (R17, R57). -/
abbrev WordAddr := BitVec 8

/-- The canonical 41-bit transaction word `{we, wa, data}` (R73). -/
abbrev TxnWord := BitVec 41

/-- A byte, as a byte-addressed bridge moves it (R60). -/
abbrev Byte := BitVec 8

/-- The index of a pixel, 0..127 (N_PIX = 128, R14, R53). -/
abbrev Pixel := Fin 128

end Sys2Proof
end

