-- ==== Sys2Proof/Machine/Ports.lean ====
section
/-!
DEFINITION. The ports of the block (00_scope.md R12): what a cycle takes in and what it shows. The inputs are
draws (R10); nothing here has a meaning of its own.
-/

namespace Sys2Proof.Machine

/-- One host transaction (30_encoding.md R72): `h_we`, `h_wa`, `h_wdata` of a cycle with `h_valid = 1`. -/
structure Txn where
  /-- `we`: true is a write, false a read. -/
  we : Bool
  /-- `wa`: the word address. -/
  wa : WordAddr
  /-- `data`: the value written, ignored by a read. -/
  data : Word
  deriving DecidableEq, Repr, Inhabited

/-- One access of a byte-addressed bridge in front of the block (20_memory.md R60, R61). -/
structure BridgeAccess where
  /-- Write (true) or read (false). -/
  we : Bool
  /-- The byte offset in the bridge's window. -/
  offset : Nat
  /-- How many bytes the access covers. -/
  width : Nat
  /-- The bytes written at `offset`, `offset + 1`, `offset + 2` and `offset + 3`. -/
  byte0 : Byte
  byte1 : Byte
  byte2 : Byte
  byte3 : Byte
  deriving DecidableEq, Repr, Inhabited

/-- What the host side does in one cycle (R72): nothing (`h_valid = 0`), one transaction, or one access through a
bridge (R60), which must amount to one transaction. -/
inductive HostLane where
  | idle
  | txn (t : Txn)
  | bridged (a : BridgeAccess)
  deriving DecidableEq, Repr, Inhabited

/-- All inputs of one cycle (R12): `rst`, the host bus, `adc_done_i` and `adc_data_i`. The ADC data lane is carried
as 32 bits, of which the block takes bits [ADC_W-1:0] (R96). -/
structure CycleInput where
  rst : Bool
  host : HostLane
  adcDone : Bool
  adcData : Word
  deriving DecidableEq, Repr, Inhabited

/-- All outputs of one cycle (R11, R12). -/
structure Outputs where
  siO : Bool
  sclkO : Bool
  busyO : Bool
  adcStartO : Bool
  hRdata : Word
  deriving DecidableEq, Repr

end Sys2Proof.Machine
end

