-- ==== Sys2Proof/Syntax.lean ====
section
/-!
DEFINITION. The instructions: one constructor per row of spec/opcode_table.json (30_encoding.md R77). One instruction
is one host transaction (00_scope.md R2). A read's data field is no operand (R76).
-/

namespace Sys2Proof

/-- The host transactions of R77. -/
inductive Instr where
  /-- NOP: write of 0 to CMD (R116). -/
  | nop
  /-- INIT: write of 1 to CMD (R113). -/
  | init
  /-- CAPTURE: write of 2 to CMD (R114). -/
  | capture
  /-- CLRERR: write of 3 to CMD (R117). -/
  | clrerr
  /-- SETCLK: write to FREQ, the whole data field a signed frequency in Hz (R115, R75). -/
  | setclk (data : Word)
  /-- RD_CMD (R119). -/
  | rdCmd
  /-- RD_FREQ (R120). -/
  | rdFreq
  /-- RD_HALFCYC (R121). -/
  | rdHalfcyc
  /-- RD_SETTLECYC (R122). -/
  | rdSettlecyc
  /-- RD_STATUS (R123). -/
  | rdStatus
  /-- RD_ERRCAUSE (R124). -/
  | rdErrcause
  /-- RD_POS (R125). -/
  | rdPos
  /-- RD_RISECNT (R126). -/
  | rdRisecnt
  /-- RD_SAMPCNT (R127). -/
  | rdSampcnt
  /-- RD_FRAME: read of word 0x80 + i (R128). -/
  | rdFrame (i : Pixel)
  /-- RD_RSVD: read of a reserved word (R129). -/
  | rdRsvd (wa : WordAddr)
  /-- ILL_CMD: write to CMD with a reserved encoding (R112, R79). -/
  | illCmd (data : Word)
  /-- ILL_WR: write to an address other than CMD and FREQ (R130). -/
  | illWr (wa : WordAddr) (data : Word)
  deriving DecidableEq, Repr

/-- The mnemonic of R77, letter for letter. -/
def Instr.mnemonic : Instr → String
  | .nop => "NOP"
  | .init => "INIT"
  | .capture => "CAPTURE"
  | .clrerr => "CLRERR"
  | .setclk _ => "SETCLK"
  | .rdCmd => "RD_CMD"
  | .rdFreq => "RD_FREQ"
  | .rdHalfcyc => "RD_HALFCYC"
  | .rdSettlecyc => "RD_SETTLECYC"
  | .rdStatus => "RD_STATUS"
  | .rdErrcause => "RD_ERRCAUSE"
  | .rdPos => "RD_POS"
  | .rdRisecnt => "RD_RISECNT"
  | .rdSampcnt => "RD_SAMPCNT"
  | .rdFrame _ => "RD_FRAME"
  | .rdRsvd _ => "RD_RSVD"
  | .illCmd _ => "ILL_CMD"
  | .illWr _ _ => "ILL_WR"

end Sys2Proof
end

