-- ==== Sys2Proof/WellFormed.lean ====
section
/-!
DEFINITION. Which instructions a transaction can be: the operand ranges that 30_encoding.md R77 gives "in effect" to
the rows RD_RSVD, ILL_CMD and ILL_WR. The other rows have no operand outside their type.
-/

namespace Sys2Proof

/-- A reserved word address, 0x09..0x7F (R59). -/
def reservedAddr (wa : WordAddr) : Bool := decide (9 ≤ wa.toNat) && decide (wa.toNat ≤ 127)

/-- A CMD word that is no command: RSVD is not 0 or OPC is 4..15 (R74, R79). -/
def reservedCmd (data : Word) : Bool :=
  decide (data.extractLsb' 4 28 ≠ 0) || decide (4 ≤ (data.extractLsb' 0 4).toNat)

/-- The operands are ones the row can have (R77). -/
def Instr.wf : Instr → Bool
  | .nop | .init | .capture | .clrerr | .setclk _ => true
  | .rdCmd | .rdFreq | .rdHalfcyc | .rdSettlecyc | .rdStatus | .rdErrcause => true
  | .rdPos | .rdRisecnt | .rdSampcnt | .rdFrame _ => true
  | .rdRsvd wa => reservedAddr wa
  | .illCmd data => reservedCmd data
  | .illWr wa _ => decide (2 ≤ wa.toNat)

end Sys2Proof
end

