-- ==== Sys2Proof/Decode.lean ====
section
/-!
DEFINITION. The canonical transaction word (30_encoding.md R73), the decoder by the priorities of R77 and R78, the
encoder, and the opcode map as a table of masks and patterns. The decoder is total on the 41-bit words (R78); a number
that is no 41-bit word is rejected by name.
-/

namespace Sys2Proof

/-! ## Fields of the canonical word (R73) -/

/-- Bit 40. -/
def TxnWord.we (t : TxnWord) : Bool := t.getLsbD 40

/-- Bits [39:32]. -/
def TxnWord.wa (t : TxnWord) : WordAddr := t.extractLsb' 32 8

/-- Bits [31:0]. -/
def TxnWord.data (t : TxnWord) : Word := t.extractLsb' 0 32

/-- The word `{we, wa, data}`: `T = we × 0x100_0000_0000 + wa × 0x1_0000_0000 + data` (R73). -/
def txnWord (we : Bool) (wa : WordAddr) (data : Word) : TxnWord :=
  BitVec.ofNat 41 (we.toNat * 0x10000000000 + wa.toNat * 0x100000000 + data.toNat)

/-- The canonical word of a transaction on the bus (R72, R73). -/
def Machine.Txn.word (t : Machine.Txn) : TxnWord := txnWord t.we t.wa t.data

/-! ## The decoder (R77, R78) -/

/-- The FRAME index `wa[6:0]` (R76). -/
def frameIndex (wa : WordAddr) : Pixel := ⟨wa.toNat % 128, Nat.mod_lt _ (by decide)⟩

/-- A write to CMD: the four commands of priority 0, then ILL_CMD (R74, R77). -/
def decodeCmd (data : Word) : Instr :=
  if data = 0 then .nop
  else if data = 1 then .init
  else if data = 2 then .capture
  else if data = 3 then .clrerr
  else .illCmd data

/-- A write: CMD and FREQ, then ILL_WR (R77). -/
def decodeWrite (wa : WordAddr) (data : Word) : Instr :=
  if wa = 0x00 then decodeCmd data
  else if wa = 0x01 then .setclk data
  else .illWr wa data

/-- A read: the nine registers and FRAME of priority 0, then RD_RSVD (R77); its data field is not examined. -/
def decodeRead (wa : WordAddr) : Instr :=
  if wa = 0x00 then .rdCmd
  else if wa = 0x01 then .rdFreq
  else if wa = 0x02 then .rdHalfcyc
  else if wa = 0x03 then .rdSettlecyc
  else if wa = 0x04 then .rdStatus
  else if wa = 0x05 then .rdErrcause
  else if wa = 0x06 then .rdPos
  else if wa = 0x07 then .rdRisecnt
  else if wa = 0x08 then .rdSampcnt
  else if wa.getLsbD 7 then .rdFrame (frameIndex wa)
  else .rdRsvd wa

/-- The instruction of a canonical word: total (R78). -/
def decode (t : TxnWord) : Instr :=
  if t.we then decodeWrite t.wa t.data else decodeRead t.wa

/-- Why a number is no transaction: R81 knows one length only, 41 bits. -/
inductive DecodeError where
  /-- Some bit above bit 40 is set. Safe: no transaction has such a bit. -/
  | tooWide
  deriving DecidableEq, Repr

/-- The decoder on any number: rejects by name what is no 41-bit word. -/
def decodeNat (w : Nat) : Except DecodeError Instr :=
  if w < 2 ^ 41 then .ok (decode (BitVec.ofNat 41 w)) else .error .tooWide

/-- The opcode table numbers the bits of the one 41-bit word as R73 does; `nbits` is that width in whole bytes, and
bits from `nbits` on are 0. -/
def decodeTableWord (nbits w : Nat) : Option Instr :=
  match decodeNat (w % 2 ^ nbits) with
  | .ok i => some i
  | .error _ => none

/-! ## The encoder (R73, R77) -/

/-- The transaction of an instruction; a read's data field, which is ignored, is 0 as in the canonical words of
R119..R129. -/
def Instr.txn : Instr → Machine.Txn
  | .nop => ⟨true, 0x00, 0⟩
  | .init => ⟨true, 0x00, 1⟩
  | .capture => ⟨true, 0x00, 2⟩
  | .clrerr => ⟨true, 0x00, 3⟩
  | .setclk data => ⟨true, 0x01, data⟩
  | .rdCmd => ⟨false, 0x00, 0⟩
  | .rdFreq => ⟨false, 0x01, 0⟩
  | .rdHalfcyc => ⟨false, 0x02, 0⟩
  | .rdSettlecyc => ⟨false, 0x03, 0⟩
  | .rdStatus => ⟨false, 0x04, 0⟩
  | .rdErrcause => ⟨false, 0x05, 0⟩
  | .rdPos => ⟨false, 0x06, 0⟩
  | .rdRisecnt => ⟨false, 0x07, 0⟩
  | .rdSampcnt => ⟨false, 0x08, 0⟩
  | .rdFrame i => ⟨false, BitVec.ofNat 8 (0x80 + i.val), 0⟩
  | .rdRsvd wa => ⟨false, wa, 0⟩
  | .illCmd data => ⟨true, 0x00, data⟩
  | .illWr wa data => ⟨true, wa, data⟩

/-- The canonical word of an instruction (R73). -/
def encode (i : Instr) : TxnWord := i.txn.word

/-! ## The opcode map as masks and patterns (R77, R78) -/

/-- A row of the opcode map. -/
structure OpcodeRow where
  mnemonic : String
  mask : TxnWord
  pattern : TxnWord
  priority : Nat
  deriving DecidableEq, Repr

/-- The row's pattern is found where its mask has ones. -/
def OpcodeRow.hits (r : OpcodeRow) (t : TxnWord) : Bool := decide (t &&& r.mask = r.pattern)

/-- The write rows of priority 0 (R77). -/
def commandRows : List OpcodeRow :=
  [⟨"NOP", 0x1FFFFFFFFFF, 0x10000000000, 0⟩,
   ⟨"INIT", 0x1FFFFFFFFFF, 0x10000000001, 0⟩,
   ⟨"CAPTURE", 0x1FFFFFFFFFF, 0x10000000002, 0⟩,
   ⟨"CLRERR", 0x1FFFFFFFFFF, 0x10000000003, 0⟩,
   ⟨"SETCLK", 0x1FF00000000, 0x10100000000, 0⟩]

/-- The read rows of priority 0 (R77). -/
def readRows : List OpcodeRow :=
  [⟨"RD_CMD", 0x1FF00000000, 0x00000000000, 0⟩,
   ⟨"RD_FREQ", 0x1FF00000000, 0x00100000000, 0⟩,
   ⟨"RD_HALFCYC", 0x1FF00000000, 0x00200000000, 0⟩,
   ⟨"RD_SETTLECYC", 0x1FF00000000, 0x00300000000, 0⟩,
   ⟨"RD_STATUS", 0x1FF00000000, 0x00400000000, 0⟩,
   ⟨"RD_ERRCAUSE", 0x1FF00000000, 0x00500000000, 0⟩,
   ⟨"RD_POS", 0x1FF00000000, 0x00600000000, 0⟩,
   ⟨"RD_RISECNT", 0x1FF00000000, 0x00700000000, 0⟩,
   ⟨"RD_SAMPCNT", 0x1FF00000000, 0x00800000000, 0⟩,
   ⟨"RD_FRAME", 0x18000000000, 0x08000000000, 0⟩]

/-- The rows of priority 1 and 2 (R77). -/
def fallbackRows : List OpcodeRow :=
  [⟨"RD_RSVD", 0x10000000000, 0x00000000000, 1⟩,
   ⟨"ILL_CMD", 0x1FF00000000, 0x10000000000, 1⟩,
   ⟨"ILL_WR", 0x10000000000, 0x10000000000, 2⟩]

/-- The opcode map of R77, rising in priority. -/
def opcodeRows : List OpcodeRow := commandRows ++ readRows ++ fallbackRows

/-- The row a decoder takes: the first one that matches, in order of priority (R78). -/
def firstRow (t : TxnWord) : Option OpcodeRow := opcodeRows.find? (fun r => r.hits t)

end Sys2Proof
end

