-- ==== Sys2Proof/Config.lean ====
section
/-!
DEFINITION. What is fixed for the machine: the protocol constants of 00_scope.md R14, the parameters of R15, and the
free values: the inputs the environment draws (R10) and the content of a FRAME entry never written (R53, R128).
-/

namespace Sys2Proof.Config

/-- Pixels per frame and pixel pulses per pass (R14). -/
def nPix : Nat := 128

/-- Initialization pulses, and pulses of each pass after its start pulse (R14). -/
def nSeq : Nat := 133

/-- Dummy pulses before and after each pixel block (R14). -/
def nDummy : Nat := 2

/-- Reset pulses at the end of each pass (R14). -/
def nReset : Nat := 1

/-- The settle delay in microseconds (R14). -/
def settleUs : Nat := 10

/-- The highest supported sensor clock frequency in Hz (R14). -/
def fMax : Nat := 500000

/-- The default frequency and clamp target in Hz (R14). -/
def fDefault : Nat := 500000

/-- The parameters of R15. F_SYS in Hz, ADC_W in bits, CTOR_FREQ a signed 32-bit frequency in Hz. -/
structure Params where
  fSys : Nat
  adcW : Nat
  ctorFreq : Int
  deriving DecidableEq, Repr

/-- The parameters lie in the ranges of R15. -/
abbrev Params.wf (p : Params) : Prop :=
  (1000000 ≤ p.fSys ∧ p.fSys ≤ 4294967295) ∧ (1 ≤ p.adcW ∧ p.adcW ≤ 32) ∧
    (-2147483648 ≤ p.ctorFreq ∧ p.ctorFreq ≤ 2147483647)

/-- FREE VALUE behind F_SYS: the spec leaves it OPEN (R15, 93_implementation_defined.md U13). Log entry 2. -/
opaque fSysDraw : BitVec 32

/-- F_SYS of this hardware (R15): some frequency in 1 000 000 .. 4 294 967 295, otherwise unconstrained. -/
def fSys : Nat := max 1000000 fSysDraw.toNat

/-- The parameters of this hardware: F_SYS open, ADC_W 16 and CTOR_FREQ 500000 as R15 gives them. Log entry 2. -/
def params : Params := ⟨fSys, 16, 500000⟩

/-- FREE VALUE: the inputs of cycle number `n` where the environment has laid out none: the host's transaction,
`adc_done_i`, `adc_data_i` and `rst` are draws of each step (R10). Log entry 1. -/
opaque drawInput : Nat → Machine.CycleInput

/-- FREE VALUE: what a read of a FRAME entry not written since reset shows in cycle number `n` (R53, R128,
93_implementation_defined.md U6). Log entry 4. -/
opaque freeSample : Nat → Word

end Sys2Proof.Config
end

