-- ==== Sys2Proof/Machine/Operands.lean ====
section
/-!
DEFINITION. Operand forms and the block's arithmetic, all of it exact (40_sequencer.md R88): the signed frequency
operand and its clamp, ceiling division, the half period and the settle delay in system clock cycles, the low bits of
an ADC answer.
-/

namespace Sys2Proof.Machine

open Sys2Proof.Config (Params)

/-- `sint32(d)`: the two's-complement value of a data word (R18, R75). -/
def sint32 (d : Word) : Int := d.toInt

/-- `clampf(v)`: in range as it is, else the default 500000 (R85). -/
def clampf (v : Int) : Nat :=
  if 1 ≤ v ∧ v ≤ (Config.fMax : Int) then v.toNat else Config.fDefault

/-- The clamped frequency as the 19-bit state element FREQ holds it (R17, R36). -/
def clampFreq (v : Int) : BitVec 19 := BitVec.ofNat 19 (clampf v)

/-- `ceil_div(a, b)`: the least natural `q` with `q × b ≥ a`, for `b > 0` (R18). -/
def ceilDiv (a b : Nat) : Nat := (a + (b - 1)) / b

/-- `halfcyc(f) = ceil_div(F_SYS, 2 × f)`: the half period in system clock cycles (R16, R86). -/
def halfcyc (p : Params) (f : Nat) : Nat := ceilDiv p.fSys (2 * f)

/-- `SETTLECYC = ceil_div(SETTLE_US × F_SYS, 1 000 000)`: the settle delay in system clock cycles (R16, R87). -/
def settlecyc (p : Params) : Nat := ceilDiv (Config.settleUs * p.fSys) 1000000

/-- ClockPeriod, exactly `1 / (2 × FREQ)` seconds (R84). -/
def clockPeriod (f : Nat) : Rat := 1 / (2 * (f : Rat))

/-- `v[w-1:0]`, zero-extended to 32 bits (R18, R52, R96). -/
def lowBits (w : Nat) (v : Word) : Word := BitVec.ofNat 32 (v.toNat % 2 ^ w)

/-- A bit as a 32-bit value (R18). -/
def bitWord (b : Bool) : Word := if b then 1 else 0

end Sys2Proof.Machine
end

