-- ==== Sys2Proof/Machine/State.lean ====
section
/-!
DEFINITION. The state of the block (10_state.md R26), its reset value (R56), and why a step can stop. The first
sixteen fields of State are exactly the elements of R26; the last four are the model's own (log entries 1, 2, 3, 5).
-/

namespace Sys2Proof.Machine

/-- OP, the sequence the sequencer is running (R27). -/
inductive Op where
  | none
  | init
  | capture
  deriving DecidableEq, Repr

/-- SPH, the phase of a sample segment (R30). -/
inductive Sph where
  | req
  | wait
  deriving DecidableEq, Repr

/-- The error causes of R132; codes 5..15 are never recorded (93_implementation_defined.md U19). -/
inductive ErrCause where
  | none
  | cmdBusy
  | rsvdCmd
  | wrRo
  | unmapped
  deriving DecidableEq, Repr

/-- The state of the block. -/
structure State where
  /-- OP (R27). -/
  op : Op
  /-- SEG, the index of the current segment (R28). -/
  seg : BitVec 10
  /-- TCNT, the segment timer (R29). -/
  tcnt : BitVec 32
  /-- SPH (R30). -/
  sph : Sph
  /-- SI, the level of the sensor's SI line (R31). -/
  si : Bool
  /-- SCLK, the level of the sensor clock (R31). -/
  sclk : Bool
  /-- INITD (R32). -/
  initd : Bool
  /-- FVALID (R33). -/
  fvalid : Bool
  /-- FNOINIT (R34). -/
  fnoinit : Bool
  /-- ERR (R35, R134). -/
  err : Bool
  /-- ERROVF (R35, R134). -/
  errovf : Bool
  /-- ERRCAUSE (R35, R132). -/
  errcause : ErrCause
  /-- FREQ, the effective sensor clock frequency in Hz (R36). -/
  freq : BitVec 19
  /-- RISECNT, rising edges since the last accepted command (R37). -/
  risecnt : BitVec 16
  /-- SAMPCNT, samples stored since the last accepted command (R38). -/
  sampcnt : BitVec 8
  /-- FRAME[0..127]; `none` is an entry not written since reset (R53, R55). -/
  frame : Vector (Option Word) 128
  /-- MODEL'S OWN: the value of port `h_rdata` in the last executed cycle (R101, R118). Log entry 3. -/
  hRdata : Word
  /-- MODEL'S OWN: the parameters of R15, which no step changes (R25). Log entry 2. -/
  par : Config.Params
  /-- MODEL'S OWN: the inputs laid out for the coming cycles (R10). Log entry 1. -/
  stim : List CycleInput
  /-- MODEL'S OWN: how many cycles have been executed; numbers the free draws. Log entry 5. -/
  cycle : Nat
  deriving DecidableEq, Repr

/-- Why a step stops with a fault. -/
inductive Fault where
  /-- Raised by the sequencer where SEG is no index of the program of OP: R28 gives SEG no such value, and no reachable
  state shows it. Safe. Log entry 6. -/
  | noSegment
  deriving DecidableEq, Repr

/-- Why a step refuses. -/
inductive Refusal where
  /-- Raised by a dispatch arm whose instruction has no meaning yet. Safe. -/
  | notModelled (mnemonic : String)
  /-- Raised by the bridge: an access narrower or wider than 32 bits (R61). Safe. Log entry 9. -/
  | bridgeWidth
  /-- Raised by the bridge: a byte offset that is no multiple of 4 (R61). Safe. Log entry 9. -/
  | bridgeMisaligned
  /-- Raised by the bridge: a byte offset beyond the 256 words of R57. Safe. Log entry 9. -/
  | bridgeOutside
  deriving DecidableEq, Repr

/-- The reset state of R56 for given parameters. -/
def State.resetOf (p : Config.Params) : State where
  op := .none
  seg := 0
  tcnt := 0
  sph := .req
  si := false
  sclk := false
  initd := false
  fvalid := false
  fnoinit := false
  err := false
  errovf := false
  errcause := .none
  freq := clampFreq p.ctorFreq
  risecnt := 0
  sampcnt := 0
  frame := Vector.replicate 128 Option.none
  hRdata := 0
  par := p
  stim := []
  cycle := 0

/-- The block right after reset (R56), with the parameters of this hardware and no input laid out. -/
def State.reset : State := State.resetOf Config.params

end Sys2Proof.Machine
end

