-- ==== Sys2Proof/Machine/Bridge.lean ====
section
/-!
DEFINITION. A byte-addressed bridge in front of the block (20_memory.md R60, R61): word `wa` at byte offsets 4·wa to
4·wa + 3, little-endian; any access but a whole aligned word is refused.
-/

namespace Sys2Proof.Machine

/-- The word of four bytes, `byte0` at the lowest offset (R60). -/
def bridgeWord (a : BridgeAccess) : Word := (a.byte3 ++ a.byte2) ++ (a.byte1 ++ a.byte0)

/-- The byte at offset `4·wa + b` of a word: bits [8b+7:8b] (R60). -/
def bridgeByte (v : Word) (b : Fin 4) : Byte := v.extractLsb' (8 * b.val) 8

/-- The transaction a bridged access amounts to, or the refusal of R61. -/
def bridgeTxn (a : BridgeAccess) : Host.Outcome Txn Fault Refusal :=
  if a.width ≠ 4 then .refused .bridgeWidth
  else if a.offset % 4 ≠ 0 then .refused .bridgeMisaligned
  else if 1024 ≤ a.offset then .refused .bridgeOutside
  else .next ⟨a.we, BitVec.ofNat 8 (a.offset / 4), bridgeWord a⟩

/-- The transaction the host side presents in a cycle, if any (R72). -/
def presented : HostLane → Host.Outcome (Option Txn) Fault Refusal
  | .idle => .next none
  | .txn t => .next (some t)
  | .bridged a =>
    match bridgeTxn a with
    | .next t => .next (some t)
    | .fault r => .fault r
    | .refused r => .refused r

end Sys2Proof.Machine
end

