-- ==== Sys2Proof/Machine/Waveform.lean ====
section
/-!
DEFINITION. Segments, the three waveform primitives and the two waveform programs (40_sequencer.md R90..R93,
41_operations.md R106, R107).
-/

namespace Sys2Proof.Machine

/-- How long a hold lasts: one half period, or the settle delay (R90). -/
inductive HoldTime where
  | half
  | settle
  deriving DecidableEq, Repr

/-- A segment of a waveform program (R90). -/
inductive Segment where
  /-- `Hold(si, ck, d)`. -/
  | hold (si ck : Bool) (d : HoldTime)
  /-- `Sample(i)`. -/
  | sample (i : Pixel)
  deriving DecidableEq, Repr

/-- `dur(d, f)` in system clock cycles (R90). -/
def dur (p : Config.Params) (d : HoldTime) (f : Nat) : Nat :=
  match d with
  | .half => halfcyc p f
  | .settle => settlecyc p

/-- START (R91). -/
def startPulse : List Segment := [.hold true false .half, .hold true true .half]

/-- PULSE (R92). -/
def pulse : List Segment := [.hold false false .half, .hold false true .half]

/-- SPULSE(i) (R93). -/
def sampledPulse (i : Pixel) : List Segment := pulse ++ [.sample i]

/-- `PULSE^n` (R106). -/
def pulses : Nat → List Segment
  | 0 => []
  | n + 1 => pulse ++ pulses n

/-- `SPULSE(i) ++ SPULSE(i+1) ++ ...`, `n` of them (R107). -/
def sampledPulses (i : Nat) : Nat → List Segment
  | 0 => []
  | n + 1 => sampledPulse (Fin.ofNat 128 i) ++ sampledPulses (i + 1) n

/-- prog(INIT), 268 segments (R106). -/
def progInit : List Segment := startPulse ++ pulses Config.nSeq

/-- The first pass of CAPTURE, segments 0..267 (R107). -/
def primePass : List Segment :=
  startPulse ++ pulses Config.nDummy ++ pulses Config.nPix ++ pulses Config.nDummy ++ pulses Config.nReset

/-- The second pass of CAPTURE, segments 269..664 (R107). -/
def capturePass : List Segment :=
  startPulse ++ pulses Config.nDummy ++ sampledPulses 0 Config.nPix ++ pulses Config.nDummy ++ pulses Config.nReset

/-- prog(CAPTURE), 665 segments (R107). -/
def progCapture : List Segment := primePass ++ [.hold false true .settle] ++ capturePass

/-- `prog(OP)`; an idle block has no program. -/
def prog : Op → List Segment
  | .none => []
  | .init => progInit
  | .capture => progCapture

end Sys2Proof.Machine
end

