-- ==== Sys2Proof/Machine/Ops.lean ====
section
/-!
DEFINITION. The named operations on the state: recording a rejected transaction (the block's only "trap entry",
60_exceptions.md R134) and clearing it (its "trap return", R135), loading, advancing and finishing a sequence
(40_sequencer.md R94, R98, R99), accepting a command (41_operations.md R112), writing FREQ (R115), storing a sample
(R96) and driving the read data (R101).
-/

namespace Sys2Proof.Machine

/-- A step that goes on from a next state, and stops where the first stopped. -/
def andThen (o : Host.Outcome State Fault Refusal) (k : State → Host.Outcome State Fault Refusal) :
    Host.Outcome State Fault Refusal :=
  match o with
  | .next s => k s
  | .fault r => .fault r
  | .refused r => .refused r

/-- `raise HostError(code)` (R134): the first error is kept, a later one only sets ERROVF. -/
def raiseHostError (c : ErrCause) (s : State) : State :=
  if s.err = false then { s with err := true, errcause := c } else { s with errovf := true }

/-- `clearErrors()` (R135). -/
def clearErrors (s : State) : State := { s with err := false, errovf := false, errcause := .none }

/-- `load(p, k, f)` with `f` the FREQ of the state (R94): segment `k` of `p` becomes current. The rules call it only with
`k` an index of `p`; another `k` leaves the state as it is. -/
def load (p : List Segment) (k : Nat) (s : State) : State :=
  match p[k]? with
  | some (.hold si ck d) =>
    { s with
      seg := BitVec.ofNat 10 k
      si := si
      sclk := ck
      tcnt := BitVec.ofNat 32 (dur s.par d s.freq.toNat - 1)
      risecnt := if s.sclk = false ∧ ck = true then s.risecnt + 1 else s.risecnt }
  | some (.sample _) => { s with seg := BitVec.ofNat 10 k, sph := .req }
  | none => s

/-- `finish()` (R99). -/
def finish (s : State) : State :=
  { s with
    op := .none
    seg := 0
    initd := s.initd || decide (s.op = .init)
    fvalid := s.fvalid || decide (s.op = .capture) }

/-- `advance()` (R98). -/
def advance (s : State) : State :=
  if s.seg.toNat + 1 = (prog s.op).length then finish s else load (prog s.op) (s.seg.toNat + 1) s

/-- `accept(op)` (R112). -/
def accept (op : Op) (s : State) : State :=
  load (prog op) 0
    { s with
      op := op
      risecnt := 0
      sampcnt := 0
      fvalid := if op = .capture then false else s.fvalid
      fnoinit := if op = .capture then !s.initd else s.fnoinit }

/-- A write of INIT or CAPTURE to CMD (R112): rejected while a sequence runs, else accepted. -/
def command (op : Op) (s : State) : State :=
  if s.op ≠ .none then raiseHostError .cmdBusy s else accept op s

/-- A write of `d` to FREQ (R115). -/
def writeFreq (d : Word) (s : State) : State := { s with freq := clampFreq (sint32 d) }

/-- `FRAME[i] <- v[ADC_W-1:0]; SAMPCNT <- SAMPCNT + 1` (R96). -/
def storeSample (i : Pixel) (v : Word) (s : State) : State :=
  { s with frame := s.frame.set i (some (lowBits s.par.adcW v)), sampcnt := s.sampcnt + 1 }

/-- The port `h_rdata` carries `v` in this cycle (R101, R118). -/
def driveRdata (v : Word) (s : State) : State := { s with hRdata := v }

/-- What a read of FRAME[i] shows (R128): the entry, or, where it has not been written since reset, a free value drawn
afresh in each cycle, with bits [31:ADC_W] zero in either case. -/
def frameWord (i : Pixel) (s : State) : Word :=
  match s.frame[i] with
  | some v => v
  | none => lowBits s.par.adcW (Config.freeSample s.cycle)

/-- The cause a write to an address other than CMD and FREQ records (R130, R132). -/
def wrCause (wa : WordAddr) : ErrCause := if reservedAddr wa then .unmapped else .wrRo

end Sys2Proof.Machine
end

