-- ==== Sys2Proof/Machine/Flags.lean ====
section
/-!
DEFINITION. The read-only views of the state: the protocol state (10_state.md R47), STATUS (R46, R123), the position
fields and POS (R49, R109, R125), the error cause code (R48, R132) and the output lines (40_sequencer.md R101).
-/

namespace Sys2Proof.Machine

/-- The recorded code of a cause (R132). -/
def causeCode : ErrCause → BitVec 4
  | .none => 0
  | .cmdBusy => 1
  | .rsvdCmd => 2
  | .wrRo => 3
  | .unmapped => 4

/-- The protocol states of R47. -/
inductive ProtoState where
  | uninitialized
  | ready
  | initSequence
  | primePass
  | capturePass
  deriving DecidableEq, Repr

/-- The encoding of STATUS.STATE (R47). -/
def protoCode : ProtoState → BitVec 3
  | .uninitialized => 0
  | .ready => 1
  | .initSequence => 2
  | .primePass => 3
  | .capturePass => 4

/-- The protocol state (R47). -/
def protoState (s : State) : ProtoState :=
  match s.op with
  | .none => if s.initd then .ready else .uninitialized
  | .init => .initSequence
  | .capture => if s.seg.toNat ≤ 268 then .primePass else .capturePass

/-- `OP ≠ NONE`: STATUS.BUSY and `busy_o` (R46, R101). -/
def busy (s : State) : Bool := decide (s.op ≠ .none)

/-- The current segment, where one is (R28). -/
def currentSegment (s : State) : Option Segment := (prog s.op)[s.seg.toNat]?

/-- The segment is a sample segment. -/
def isSample : Option Segment → Bool
  | some (.sample _) => true
  | _ => false

/-- STATUS.ADC_BUSY: a sequence runs and its current segment is a sample segment (R46). -/
def adcBusy (s : State) : Bool := busy s && isSample (currentSegment s)

/-- `adc_start_o` (R101). -/
def adcStart (s : State) : Bool := adcBusy s && decide (s.sph = .req)

/-- STATUS as R123 composes it. -/
def statusWord (s : State) : Word :=
  bitWord (busy s) ||| bitWord s.initd <<< 1 ||| bitWord s.fvalid <<< 2 ||| bitWord s.fnoinit <<< 3
    ||| bitWord s.err <<< 4 ||| bitWord s.errovf <<< 5 ||| (protoCode (protoState s)).setWidth 32 <<< 8
    ||| bitWord s.si <<< 16 ||| bitWord s.sclk <<< 17 ||| bitWord (adcBusy s) <<< 18

/-- The named blocks of POS (R109). -/
inductive PosBlock where
  | idle
  | initStart
  | initPulses
  | p1Start
  | p1Pulses
  | p1Settle
  | p2Start
  | p2Discard
  | p2Pixels
  | p2Trailer
  deriving DecidableEq, Repr

/-- The encoding of POS.BLOCK (R109). -/
def blockCode : PosBlock → BitVec 4
  | .idle => 0
  | .initStart => 1
  | .initPulses => 2
  | .p1Start => 3
  | .p1Pulses => 4
  | .p1Settle => 5
  | .p2Start => 6
  | .p2Discard => 7
  | .p2Pixels => 8
  | .p2Trailer => 9

/-- BLOCK, PCNT and SUB (R49). -/
structure PosFields where
  block : PosBlock
  pcnt : Nat
  sub : Nat
  deriving DecidableEq, Repr

/-- The POS fields as functions of OP and SEG (R109). The table ends at SEG 267 for INIT and 664 for CAPTURE; a SEG above,
which R28 does not allow, continues the last row. -/
def posFields (op : Op) (seg : Nat) : PosFields :=
  match op with
  | .none => ⟨.idle, 0, 0⟩
  | .init => if seg ≤ 1 then ⟨.initStart, 0, seg⟩ else ⟨.initPulses, (seg - 2) / 2, (seg - 2) % 2⟩
  | .capture =>
    if seg ≤ 1 then ⟨.p1Start, 0, seg⟩
    else if seg ≤ 267 then ⟨.p1Pulses, (seg - 2) / 2, (seg - 2) % 2⟩
    else if seg = 268 then ⟨.p1Settle, 0, 3⟩
    else if seg ≤ 270 then ⟨.p2Start, 0, seg - 269⟩
    else if seg ≤ 274 then ⟨.p2Discard, (seg - 271) / 2, (seg - 271) % 2⟩
    else if seg ≤ 658 then ⟨.p2Pixels, (seg - 275) / 3, (seg - 275) % 3⟩
    else ⟨.p2Trailer, (seg - 659) / 2, (seg - 659) % 2⟩

/-- POS as R125 composes it: 0 when OP = NONE. -/
def posWord (s : State) : Word :=
  match s.op with
  | .none => 0
  | op =>
    let f := posFields op s.seg.toNat
    s.seg.setWidth 32 ||| (blockCode f.block).setWidth 32 <<< 12 ||| BitVec.ofNat 32 f.pcnt <<< 16
      ||| BitVec.ofNat 32 f.sub <<< 24

/-- FREQ as a word (R120). -/
def freqWord (s : State) : Word := s.freq.setWidth 32

/-- HALFCYC: a function of FREQ and F_SYS (R44, R121). -/
def halfcycWord (s : State) : Word := BitVec.ofNat 32 (halfcyc s.par s.freq.toNat)

/-- SETTLECYC (R45, R122). -/
def settlecycWord (s : State) : Word := BitVec.ofNat 32 (settlecyc s.par)

/-- ERRCAUSE as a word (R124). -/
def errcauseWord (s : State) : Word := (causeCode s.errcause).setWidth 32

/-- RISECNT as a word (R126). -/
def risecntWord (s : State) : Word := s.risecnt.setWidth 32

/-- SAMPCNT as a word (R127). -/
def sampcntWord (s : State) : Word := s.sampcnt.setWidth 32

end Sys2Proof.Machine
end

