-- ==== Sys2Proof/Machine/Bus.lean ====
section
/-!
DEFINITION. The two primitives of 00_scope.md R20 over the whole register map (10_state.md R41): `BusRead(wa)` and
`BusWrite(wa, d)`, written by address as 41_operations.md R112, R115 and 42_register_access.md R119..R130 give them,
independently of the decoder. The meanings of the single instructions are in Commands.lean and RegAccess.lean; that
they agree with these two is a claim.
-/

namespace Sys2Proof.Machine

/-- `BusRead(wa)` (R119..R129). -/
def busRead (wa : WordAddr) (s : State) : Word :=
  if 0x80 ≤ wa.toNat then frameWord (frameIndex wa) s
  else match wa.toNat with
    | 0x01 => freqWord s
    | 0x02 => halfcycWord s
    | 0x03 => settlecycWord s
    | 0x04 => statusWord s
    | 0x05 => errcauseWord s
    | 0x06 => posWord s
    | 0x07 => risecntWord s
    | 0x08 => sampcntWord s
    | _ => 0

/-- `BusWrite(0x00, d)`: the decode of a CMD write (R112), the reserved-encoding check before the busy check. -/
def cmdWrite (d : Word) (s : State) : State :=
  let opc := (d.extractLsb' 0 4).toNat
  if d.extractLsb' 4 28 ≠ 0 ∨ 4 ≤ opc then raiseHostError .rsvdCmd s
  else if opc = 0 then s
  else if opc = 3 then clearErrors s
  else if s.op ≠ .none then raiseHostError .cmdBusy s
  else accept (if opc = 1 then .init else .capture) s

/-- `BusWrite(wa, d)` (R112, R115, R130). -/
def busWrite (wa : WordAddr) (d : Word) (s : State) : State :=
  if wa.toNat = 0 then cmdWrite d s
  else if wa.toNat = 1 then writeFreq d s
  else if 9 ≤ wa.toNat ∧ wa.toNat ≤ 0x7F then raiseHostError .unmapped s
  else raiseHostError .wrRo s

end Sys2Proof.Machine
end

