-- ==== Sys2Proof/Machine/Commands.lean ====
section
/-!
DEFINITION. The meanings of the writes to CMD and FREQ (41_operations.md): NOP, INIT, CAPTURE, CLRERR, SETCLK and
ILL_CMD. A meaning is the host's part of the cycle that presents the transaction; the sequencer's part is
Sequencer.lean, and the cycle that joins them Cycle.lean (log entry 8).
-/

namespace Sys2Proof.Machine

/-- NOP: nothing, in every state (R116, R80). -/
def execNop (s : State) : Host.Outcome State Fault Refusal := .next s

/-- INIT: accepted when idle, else rejected with CMD_BUSY (R112, R113). -/
def execInit (s : State) : Host.Outcome State Fault Refusal := .next (command .init s)

/-- CAPTURE: accepted when idle, else rejected with CMD_BUSY (R112, R114). -/
def execCapture (s : State) : Host.Outcome State Fault Refusal := .next (command .capture s)

/-- CLRERR: `clearErrors()`, in every state (R117, R135). -/
def execClrerr (s : State) : Host.Outcome State Fault Refusal := .next (clearErrors s)

/-- SETCLK: FREQ takes the clamped value, in every state (R115). -/
def execSetclk (data : Word) (s : State) : Host.Outcome State Fault Refusal := .next (writeFreq data s)

/-- ILL_CMD: recorded as RSVD_CMD, busy or not; the data is not recorded (R112, R132, R136). -/
def execIllCmd (_data : Word) (s : State) : Host.Outcome State Fault Refusal := .next (raiseHostError .rsvdCmd s)

end Sys2Proof.Machine
end

