-- ==== Sys2Proof/Machine/RegAccess.lean ====
section
/-!
DEFINITION. The meanings of the reads and of the illegal register write (42_register_access.md). A read puts its value
on `h_rdata` and changes no state of the block (R118).
-/

namespace Sys2Proof.Machine

/-- RD_CMD: reads 0 (R119). -/
def execRdCmd (s : State) : Host.Outcome State Fault Refusal := .next (driveRdata 0 s)

/-- RD_FREQ (R120). -/
def execRdFreq (s : State) : Host.Outcome State Fault Refusal := .next (driveRdata (freqWord s) s)

/-- RD_HALFCYC (R121). -/
def execRdHalfcyc (s : State) : Host.Outcome State Fault Refusal := .next (driveRdata (halfcycWord s) s)

/-- RD_SETTLECYC (R122). -/
def execRdSettlecyc (s : State) : Host.Outcome State Fault Refusal := .next (driveRdata (settlecycWord s) s)

/-- RD_STATUS (R123). -/
def execRdStatus (s : State) : Host.Outcome State Fault Refusal := .next (driveRdata (statusWord s) s)

/-- RD_ERRCAUSE (R124). -/
def execRdErrcause (s : State) : Host.Outcome State Fault Refusal := .next (driveRdata (errcauseWord s) s)

/-- RD_POS (R125). -/
def execRdPos (s : State) : Host.Outcome State Fault Refusal := .next (driveRdata (posWord s) s)

/-- RD_RISECNT (R126). -/
def execRdRisecnt (s : State) : Host.Outcome State Fault Refusal := .next (driveRdata (risecntWord s) s)

/-- RD_SAMPCNT (R127). -/
def execRdSampcnt (s : State) : Host.Outcome State Fault Refusal := .next (driveRdata (sampcntWord s) s)

/-- RD_FRAME: the entry, or a free value for an entry not written since reset (R128). -/
def execRdFrame (i : Pixel) (s : State) : Host.Outcome State Fault Refusal := .next (driveRdata (frameWord i s) s)

/-- RD_RSVD: reads 0 (R129). -/
def execRdRsvd (_wa : WordAddr) (s : State) : Host.Outcome State Fault Refusal := .next (driveRdata 0 s)

/-- ILL_WR: recorded as WR_RO or UNMAPPED by the address; the data is ignored (R130). -/
def execIllWr (wa : WordAddr) (_data : Word) (s : State) : Host.Outcome State Fault Refusal :=
  .next (raiseHostError (wrCause wa) s)

end Sys2Proof.Machine
end

