-- ==== Sys2Proof/Machine/Dispatch.lean ====
section
/-!
DEFINITION. The meaning of every instruction: one arm per constructor of Instr, each a call of its own meaning.
-/

namespace Sys2Proof.Machine

def exec (i : Instr) (s : State) : Host.Outcome State Fault Refusal :=
  match i with
  | .nop => Sys2Proof.Machine.execNop s
  | .init => Sys2Proof.Machine.execInit s
  | .capture => Sys2Proof.Machine.execCapture s
  | .clrerr => Sys2Proof.Machine.execClrerr s
  | .setclk data => Sys2Proof.Machine.execSetclk data s
  | .rdCmd => Sys2Proof.Machine.execRdCmd s
  | .rdFreq => Sys2Proof.Machine.execRdFreq s
  | .rdHalfcyc => Sys2Proof.Machine.execRdHalfcyc s
  | .rdSettlecyc => Sys2Proof.Machine.execRdSettlecyc s
  | .rdStatus => Sys2Proof.Machine.execRdStatus s
  | .rdErrcause => Sys2Proof.Machine.execRdErrcause s
  | .rdPos => Sys2Proof.Machine.execRdPos s
  | .rdRisecnt => Sys2Proof.Machine.execRdRisecnt s
  | .rdSampcnt => Sys2Proof.Machine.execRdSampcnt s
  | .rdFrame px => Sys2Proof.Machine.execRdFrame px s
  | .rdRsvd wa => Sys2Proof.Machine.execRdRsvd wa s
  | .illCmd data => Sys2Proof.Machine.execIllCmd data s
  | .illWr wa data => Sys2Proof.Machine.execIllWr wa data s

end Sys2Proof.Machine
end

