-- ==== Sys2Proof/Machine/Sequencer.lean ====
section
/-!
DEFINITION. The sequencer's part of a cycle (40_sequencer.md R95, R96, R102), applied to the state after the host's part:
by R103 the host's part leaves every element the sequencer reads as it was, except FREQ, which the sequencer is to
read after the host's write (R100).
-/

namespace Sys2Proof.Machine

/-- A cycle in a hold segment (R95). -/
def holdStep (s : State) : State :=
  if 0 < s.tcnt.toNat then { s with tcnt := s.tcnt - 1 } else advance s

/-- A cycle in the sample segment of pixel `i` (R96, R97): request, then wait until the ADC answers. -/
def sampleStep (i : Pixel) (done : Bool) (data : Word) (s : State) : State :=
  match s.sph with
  | .req => { s with sph := .wait }
  | .wait => if done then advance (storeSample i data s) else s

/-- The sequencer's part of a cycle with OP ≠ NONE (R102). -/
def sequencer (done : Bool) (data : Word) (s : State) : Host.Outcome State Fault Refusal :=
  match currentSegment s with
  | some (.hold _ _ _) => .next (holdStep s)
  | some (.sample i) => .next (sampleStep i done data s)
  | none => .fault .noSegment

end Sys2Proof.Machine
end

