-- ==== Sys2Proof/Machine/Cycle.lean ====
section
/-!
DEFINITION. One cycle of the block (40_sequencer.md R102): reset, or the host's part and then the sequencer's part, and the
outputs of the cycle (R101). The inputs of the cycle are the next ones laid out in the state, or a free draw (R10, log
entry 1).
-/

namespace Sys2Proof.Machine

/-- The inputs of the coming cycle. -/
def nextInput (s : State) : CycleInput :=
  match s.stim with
  | [] => Config.drawInput s.cycle
  | inp :: _ => inp

/-- The cycle is over: its inputs are used up and the count of cycles goes on. -/
def elapse (s : State) : State := { s with stim := s.stim.tail, cycle := s.cycle + 1 }

/-- A cycle with `rst = 1` (R145): the reset state of R56, `h_rdata` 0. The parameters, the inputs laid out and the count
of cycles are no state of the block and go on. -/
def resetCycle (s : State) : State := { State.resetOf s.par with stim := s.stim, cycle := s.cycle }

/-- The host's part of a cycle (R102): the presented transaction is decoded and executed; `h_rdata` is 0 where no read is
presented (R101). -/
def hostPart (h : HostLane) (s : State) : Host.Outcome State Fault Refusal :=
  match presented h with
  | .next none => .next (driveRdata 0 s)
  | .next (some t) => exec (decode t.word) (driveRdata 0 s)
  | .fault r => .fault r
  | .refused r => .refused r

/-- The sequencer's part of a cycle: it steps where a sequence was running at the START of the cycle (R102), so a
sequence accepted in this cycle does not step in it. -/
def sequencerPart (wasBusy : Bool) (inp : CycleInput) (s : State) : Host.Outcome State Fault Refusal :=
  if wasBusy then sequencer inp.adcDone inp.adcData s else .next s

/-- One cycle with the inputs `inp` (R102). -/
def runCycle (inp : CycleInput) (s : State) : Host.Outcome State Fault Refusal :=
  if inp.rst then .next (elapse (resetCycle s))
  else andThen (hostPart inp.host s) fun s1 =>
    andThen (sequencerPart (busy s) inp s1) fun s2 => .next (elapse s2)

/-- `h_rdata` of a cycle with the inputs `inp` (R101). -/
def rdataOut (inp : CycleInput) (s : State) : Word :=
  if inp.rst then 0
  else match presented inp.host with
    | .next (some t) => if t.we then 0 else busRead t.wa s
    | _ => 0

/-- The outputs of the cycle that starts in `s` (R101): functions of the state, and of a presented read for `h_rdata`. -/
def outputs (s : State) : Outputs where
  siO := s.si
  sclkO := s.sclk
  busyO := busy s
  adcStartO := adcStart s
  hRdata := rdataOut (nextInput s) s

/-- The same state with `inp` as the inputs of the coming cycle, in place of those laid out or drawn for it. -/
def withInput (s : State) (inp : CycleInput) : State := { s with stim := inp :: s.stim.tail }

/-- The same state in which the coming cycle presents the transaction whose word is `w`, with `rst = 0`; the ADC's inputs
of the cycle are as they were. -/
def withTxn (s : State) (w : TxnWord) : State :=
  withInput s { nextInput s with rst := false, host := .txn ⟨w.we, w.wa, w.data⟩ }

/-- A number numbered as the opcode table numbers bits, as the 41-bit word it is. -/
def tableWord (nbits w : Nat) : TxnWord := BitVec.ofNat 41 (w % 2 ^ nbits)

end Sys2Proof.Machine
end

