-- ==== Sys2Proof/Machine/Step.lean ====
section
/-!
DEFINITION. The step: one cycle of the system clock (00_scope.md R8) with the inputs of that cycle. The block fetches no
instruction (20_memory.md R70): its instructions are the transactions the host presents.
-/

namespace Sys2Proof.Machine

/-- One cycle of `clk` (R8, R102). -/
def step (s : State) : Host.Outcome State Fault Refusal := runCycle (nextInput s) s

/-- `s` with the host presenting, in the coming cycle, the transaction whose 41-bit word is `w` (log entry 12). -/
def State.withFetchWord (s : State) (nbits w : Nat) : State := withTxn s (tableWord nbits w)

end Sys2Proof.Machine
end

