-- ==== Sys2Proof/Safety.lean ====
section
/-!
DEFINITION. What claims are stated in: runs, traces (00_scope.md R11), counts over waveform programs
(41_operations.md R110), inputs that leave a sequence's period alone, and the invariant of the block's legal states.
-/

namespace Sys2Proof.Machine

/-- `n` cycles. -/
abbrev run (n : Nat) (s : State) : Host.Outcome State Fault Refusal := Host.Core.run Sys2Proof.core n s

/-- The outputs of the next `n` cycles (R11); shorter where the machine stops. -/
def trace : Nat → State → List Outputs
  | 0, _ => []
  | n + 1, s =>
    outputs s :: (match step s with
      | .next t => trace n t
      | .fault _ => []
      | .refused _ => [])

/-- The sequence `op` runs in each of the next `n` cycles, and no sequence runs after them. -/
def lasts (op : Op) : Nat → State → Bool
  | 0, s => decide (s.op = .none)
  | n + 1, s => decide (s.op = op) && (match step s with
    | .next t => lasts op n t
    | .fault _ => false
    | .refused _ => false)

/-- Rising edges in a sequence of levels that follows the level `l` (R21). -/
def rises : Bool → List Bool → Nat
  | _, [] => 0
  | l, m :: r => (if l = false ∧ m = true then 1 else 0) + rises m r

/-- Falling edges in a sequence of levels that follows the level `l` (R21). -/
def falls : Bool → List Bool → Nat
  | _, [] => 0
  | l, m :: r => (if l = true ∧ m = false then 1 else 0) + falls m r

/-- The levels of SI and the sensor clock after the segments of a list, from the levels `l` before (R90). -/
def linesAfter : Bool × Bool → List Segment → Bool × Bool
  | l, [] => l
  | _, .hold si ck _ :: r => linesAfter (si, ck) r
  | l, .sample _ :: r => linesAfter l r

/-- Rising edges of the sensor clock over the segments of a list, from the level `l` before (R110). -/
def risingEdges : Bool → List Segment → Nat
  | _, [] => 0
  | l, .hold _ ck _ :: r => (if l = false ∧ ck = true then 1 else 0) + risingEdges ck r
  | l, .sample _ :: r => risingEdges l r

/-- Sample segments of a list (R110). -/
def sampleCount : List Segment → Nat
  | [] => 0
  | .hold _ _ _ :: r => sampleCount r
  | .sample _ :: r => 1 + sampleCount r

/-- The inputs of a cycle without reset, in which the host side presents nothing the block refuses to take and no write
to FREQ: by R104 such a cycle leaves a running sequence alone. -/
def calm (inp : CycleInput) : Bool :=
  !inp.rst && (match presented inp.host with
    | .next none => true
    | .next (some t) => !(t.we && decide (t.wa = 1))
    | .fault _ => false
    | .refused _ => false)

/-- Every entry of FRAME that is written fits in ADC_W bits (R53). -/
def frameFits (s : State) : Prop :=
  ∀ (i : Pixel) (v : Word), s.frame[i] = some v → v.toNat < 2 ^ s.par.adcW

/-- The legal states of the block: what R26..R38, R47, R53, R110 and R135 say of every state a run reaches. -/
structure Legal (s : State) : Prop where
  /-- The parameters lie in the ranges of R15. -/
  params : s.par.wf
  /-- FREQ is in 1..500000 (R36). -/
  freqLegal : 1 ≤ s.freq.toNat ∧ s.freq.toNat ≤ 500000
  /-- SEG is 0 when idle (R28). -/
  idleSeg : s.op = .none → s.seg = 0
  /-- SEG is an index of the running program (R28). -/
  busySeg : s.op ≠ .none → s.seg.toNat < (prog s.op).length
  /-- TCNT is below the longest half period, 2 147 483 648 (R16, R29). -/
  timer : s.tcnt.toNat < 2147483648
  /-- SI and SCLK show the levels of the current segment (R31, R94). -/
  lines : s.op ≠ .none → (s.si, s.sclk) = linesAfter (false, false) ((prog s.op).take (s.seg.toNat + 1))
  /-- RISECNT is the count of rising edges driven so far (R37). -/
  riseCount : s.op ≠ .none → s.risecnt.toNat = risingEdges false ((prog s.op).take (s.seg.toNat + 1))
  /-- SAMPCNT is the count of sample segments ended so far (R38). -/
  sampleCounted : s.op ≠ .none → s.sampcnt.toNat = sampleCount ((prog s.op).take s.seg.toNat)
  /-- RISECNT never exceeds 268 and SAMPCNT never exceeds 128 (R37, R38). -/
  countsBounded : s.risecnt.toNat ≤ 268 ∧ s.sampcnt.toNat ≤ 128
  /-- With ERR = 0 no cause and no overflow is recorded (R132, R134, R135). -/
  noError : s.err = false → s.errcause = .none ∧ s.errovf = false
  /-- With ERR = 1 a cause is recorded (R134). -/
  someError : s.err = true → s.errcause ≠ .none
  /-- Written FRAME entries fit in ADC_W bits (R53). -/
  frameWidth : frameFits s
  /-- During a CAPTURE the entries below SAMPCNT are written (R114). -/
  frameProgress : s.op = .capture → ∀ i : Pixel, i.val < s.sampcnt.toNat → (s.frame[i]).isSome
  /-- FVALID says that all 128 entries are written and that no CAPTURE runs (R33). -/
  frameValid : s.fvalid = true → s.op ≠ .capture ∧ ∀ i : Pixel, (s.frame[i]).isSome

/-- The block at power-up (R147): every state element may hold any value of its type, and the environment begins with a cycle of
`rst = 1`. -/
def PowerUp (s : State) : Prop := s.par.wf ∧ (nextInput s).rst = true

end Sys2Proof.Machine
end

