-- ==== Sys2Proof/Certificates/Slice0/Obligations.lean ====
section
/-!
DEFINITION. The statements for the provers. Each docstring names the rules of spec/ it formalises; the numbers are those
of OBLIGATIONS.json.
-/

open Sys2Proof Sys2Proof.Machine

/-! ## Encoding and decoding -/

/-- Decoding the canonical word of a well-formed instruction gives the instruction back, whatever its operands
(R73, R77). -/
def Obligations.DecodeOfEncodeIsIdentity : Prop :=
  ∀ i : Instr, i.wf = true → decode (encode i) = i

/-- Every 41-bit word decodes to an instruction whose operands are ones its row can have (R77, R78). -/
def Obligations.DecodedInstructionIsWellFormed : Prop :=
  ∀ t : TxnWord, (decode t).wf = true

/-- Encoding what a word decodes to gives the word back, but for the data bits of a read, which are ignored and come back
as 0 (R73, R76). -/
def Obligations.EncodeOfDecodeKeepsWord : Prop :=
  ∀ t : TxnWord, encode (decode t) = if t.getLsbD 40 = true then t else t &&& 0xFF00000000#41

/-- R78: the rows of the opcode map are tried in rising priority and the first that matches is the decoded
instruction's; the rows of one priority are pairwise disjoint; ILL_WR and RD_RSVD together cover every word, so that some
row always matches. -/
def Obligations.DecoderTakesFirstMatchingRow : Prop :=
  opcodeRows.Pairwise (fun r q => r.priority ≤ q.priority) ∧
  (∀ r ∈ opcodeRows, ∀ q ∈ opcodeRows, r.priority = q.priority → r ≠ q →
    ∀ t : TxnWord, ¬ (r.hits t = true ∧ q.hits t = true)) ∧
  (∀ t : TxnWord, ∃ r ∈ opcodeRows, (r.mnemonic = "ILL_WR" ∨ r.mnemonic = "RD_RSVD") ∧ r.hits t = true) ∧
  (∀ t : TxnWord, ∃ r, firstRow t = some r ∧ r.mnemonic = (decode t).mnemonic)

/-- Words written out from the encodings of R77, one of every row, decode to the instructions they stand for. -/
def Obligations.SpecWordsDecode : Prop :=
  decode 0x10000000000#41 = .nop ∧ decode 0x10000000001#41 = .init ∧ decode 0x10000000002#41 = .capture ∧
  decode 0x10000000003#41 = .clrerr ∧ decode 0x10000000004#41 = .illCmd 4 ∧
  decode 0x10000000010#41 = .illCmd 0x10 ∧ decode 0x10080000001#41 = .illCmd 0x80000001 ∧
  decode 0x101FFFFFFFB#41 = .setclk 0xFFFFFFFB ∧ decode 0x00012345678#41 = .rdCmd ∧
  decode 0x00100000000#41 = .rdFreq ∧ decode 0x00200000000#41 = .rdHalfcyc ∧
  decode 0x00300000000#41 = .rdSettlecyc ∧ decode 0x00400000000#41 = .rdStatus ∧
  decode 0x00500000000#41 = .rdErrcause ∧ decode 0x00600000000#41 = .rdPos ∧
  decode 0x00700000000#41 = .rdRisecnt ∧ decode 0x00800000000#41 = .rdSampcnt ∧
  decode 0x00900000000#41 = .rdRsvd 0x09 ∧ decode 0x07F00000000#41 = .rdRsvd 0x7F ∧
  decode 0x08000000000#41 = .rdFrame 0 ∧ decode 0x0FFFFFFFFFF#41 = .rdFrame 127 ∧
  decode 0x10200000000#41 = .illWr 0x02 0 ∧ decode 0x10900000000#41 = .illWr 0x09 0 ∧
  decode 0x18000000000#41 = .illWr 0x80 0

/-! ## The cycle -/

/-- A cycle in which the host presents a transaction and `rst = 0` is: the decoded instruction's `exec` on the state with
`h_rdata` at 0; then the sequencer, where a sequence was running at the START of the cycle; then the inputs are used up
(R72, R102). -/
def Obligations.StepRunsDecodedTransaction : Prop :=
  ∀ (s : State) (inp : CycleInput) (t : Txn), nextInput s = inp → inp.rst = false →
    presented inp.host = .next (some t) →
    step s = andThen (exec (decode t.word) (driveRdata 0 s)) fun s1 =>
      andThen (if s.op = .none then .next s1 else sequencer inp.adcDone inp.adcData s1) fun s2 =>
        .next { s2 with stim := s2.stim.tail, cycle := s2.cycle + 1 }

/-- A cycle without a transaction and with `rst = 0` runs the sequencer alone (R72, R102); `h_rdata` is 0 (R101). -/
def Obligations.StepWithoutTransactionRunsSequencer : Prop :=
  ∀ (s : State) (inp : CycleInput), nextInput s = inp → inp.rst = false → inp.host = .idle →
    step s = andThen
      (if s.op = .none then .next { s with hRdata := 0 }
        else sequencer inp.adcDone inp.adcData { s with hRdata := 0 }) fun s2 =>
      .next { s2 with stim := s2.stim.tail, cycle := s2.cycle + 1 }

/-- The word of a well-formed instruction, placed where the next cycle takes its transaction, is run by that cycle
(R72, R102; the placing is the model's, log entry 12): an idle block does the instruction's effect and nothing more. -/
def Obligations.PlacedWordIsRunByStep : Prop :=
  ∀ (s : State) (i : Instr), i.wf = true → s.op = .none →
    step (s.withFetchWord 48 (encode i).toNat) =
      andThen (exec i (driveRdata 0 (s.withFetchWord 48 (encode i).toNat))) fun s1 =>
        .next { s1 with stim := s.stim.tail, cycle := s1.cycle + 1 }

/-- A cycle with `rst = 1` puts every element of R26 to its reset value of R56 from every state, legal or not, whatever
transaction and ADC answer it brings (R145); `h_rdata` is 0. That the parameters, the inputs laid out and the count of
cycles go on is the model's (log entries 1, 2, 5). -/
def Obligations.ResetCycleGivesResetState : Prop :=
  ∀ s : State, (nextInput s).rst = true → ∃ t, step s = .next t ∧
    t.op = .none ∧ t.seg = 0 ∧ t.tcnt = 0 ∧ t.sph = .req ∧ t.si = false ∧ t.sclk = false ∧ t.initd = false ∧
    t.fvalid = false ∧ t.fnoinit = false ∧ t.err = false ∧ t.errovf = false ∧ t.errcause = .none ∧
    (if 1 ≤ s.par.ctorFreq ∧ s.par.ctorFreq ≤ 500000 then (t.freq.toNat : Int) = s.par.ctorFreq
      else t.freq.toNat = 500000) ∧
    t.risecnt = 0 ∧ t.sampcnt = 0 ∧ (∀ i : Pixel, t.frame[i] = none) ∧ t.hRdata = 0 ∧
    t.par = s.par ∧ t.stim = s.stim.tail ∧ t.cycle = s.cycle + 1

/-- After reset, for parameters in range (R56): STATUS, POS, RISECNT, SAMPCNT and ERRCAUSE read 0; FREQ reads the clamped
CTOR_FREQ, which is in 1..500000; HALFCYC reads the half period of that frequency, for the default CTOR_FREQ the least q with
q × 1 000 000 ≥ F_SYS. -/
def Obligations.ReadsAfterReset : Prop :=
  ∀ p : Config.Params, p.wf →
    (∀ i ∈ [Instr.rdStatus, .rdPos, .rdRisecnt, .rdSampcnt, .rdErrcause],
      exec i (State.resetOf p) = .next { State.resetOf p with hRdata := 0 }) ∧
    (∃ t, exec .rdFreq (State.resetOf p) = .next t ∧ 1 ≤ t.hRdata.toNat ∧ t.hRdata.toNat ≤ 500000 ∧
      (t.hRdata.toNat : Int) = if 1 ≤ p.ctorFreq ∧ p.ctorFreq ≤ 500000 then p.ctorFreq else 500000) ∧
    (∀ f : Nat, (f : Int) = (if 1 ≤ p.ctorFreq ∧ p.ctorFreq ≤ 500000 then p.ctorFreq else 500000) →
      ∃ t, exec .rdHalfcyc (State.resetOf p) = .next t ∧
        p.fSys ≤ t.hRdata.toNat * (2 * f) ∧ ∀ q, p.fSys ≤ q * (2 * f) → t.hRdata.toNat ≤ q) ∧
    (p.ctorFreq = 500000 → ∃ t, exec .rdHalfcyc (State.resetOf p) = .next t ∧
      p.fSys ≤ t.hRdata.toNat * 1000000 ∧ ∀ q, p.fSys ≤ q * 1000000 → t.hRdata.toNat ≤ q)

/-- An idle block without a transaction keeps all its state: SI and the sensor clock stay at their last levels
(R144). -/
def Obligations.IdleBlockKeepsState : Prop :=
  ∀ s : State, s.op = .none → (nextInput s).rst = false → (nextInput s).host = .idle →
    step s = .next { s with hRdata := 0, stim := s.stim.tail, cycle := s.cycle + 1 }

/-- The outputs of a cycle (R101), functions of the state at its start: `si_o` is SI, `sclk_o` is SCLK, `busy_o` is OP ≠ NONE, and
`adc_start_o` is high in the request phase of a sample segment (277 + 3 × i of CAPTURE), in cycles of reset too; `h_rdata` is
BusRead of a presented read's address, through a bridge or not, else 0, and 0 with `rst = 1`. The next state shows that
`h_rdata` (the latch is the model's: log entry 3). -/
def Obligations.CycleOutputs : Prop :=
  (∀ s : State, (outputs s).siO = s.si ∧ (outputs s).sclkO = s.sclk ∧ ((outputs s).busyO = true ↔ s.op ≠ .none) ∧
    ((outputs s).adcStartO = true ↔ s.op = .capture ∧ s.sph = .req ∧ ∃ i : Pixel, s.seg.toNat = 277 + 3 * i.val)) ∧
  ∀ s t : State, step s = .next t →
    (outputs s).hRdata = t.hRdata ∧
    (∀ wa d, (nextInput s).rst = false → presented (nextInput s).host = .next (some ⟨false, wa, d⟩) →
      t.hRdata = busRead wa s) ∧
    (((nextInput s).rst = true ∨ presented (nextInput s).host = .next none ∨
      ∃ wa d, presented (nextInput s).host = .next (some ⟨true, wa, d⟩)) → t.hRdata = 0)

/-- Every transaction does what the primitives BusRead and BusWrite of R20 do at its address: the read map of R41 with
R119..R129, the CMD decode of R112, the FREQ write of R115 and the illegal writes of R130. -/
def Obligations.TransactionsAreBusPrimitives : Prop :=
  ∀ (s : State) (wa : WordAddr) (d : Word),
    exec (decode (txnWord false wa d)) s = .next { s with hRdata := busRead wa s } ∧
    exec (decode (txnWord true wa d)) s = .next (busWrite wa d s)

/-! ## Commands -/

/-- NOP completes in every state, busy or idle, and changes nothing; a cycle that presents it gives the state the cycle
would give without a transaction. A CMD write of 0x10 is no NOP (R116, R80). -/
def Obligations.NopChangesNothing : Prop :=
  encode .nop = 0x10000000000#41 ∧ decode 0x10000000010#41 = .illCmd 0x10 ∧
  (∀ s : State, exec .nop s = .next s) ∧
  ∀ (s : State) (inp : CycleInput), inp.host = .txn ⟨true, 0x00, 0⟩ →
    runCycle inp s = runCycle { inp with host := .idle } s

/-- INIT written while idle is accepted: RISECNT and SAMPCNT are 0, segment 0 of the INIT program is loaded (SI high,
sensor clock low, one half period), and nothing else changes (R112, R113, R94). -/
def Obligations.InitAcceptedWhenIdle : Prop :=
  ∀ s : State, s.op = .none →
    exec .init s = .next { s with
      op := .init, seg := 0, si := true, sclk := false, risecnt := 0, sampcnt := 0,
      tcnt := BitVec.ofNat 32 (halfcyc s.par s.freq.toNat - 1) }

/-- CAPTURE written while idle is accepted, before or after an INIT: as INIT, and FVALID is 0 and FNOINIT the inverse of
INITD (R112, R114, R94). -/
def Obligations.CaptureAcceptedWhenIdle : Prop :=
  ∀ s : State, s.op = .none →
    exec .capture s = .next { s with
      op := .capture, seg := 0, si := true, sclk := false, risecnt := 0, sampcnt := 0,
      tcnt := BitVec.ofNat 32 (halfcyc s.par s.freq.toNat - 1), fvalid := false, fnoinit := !s.initd }

/-- INIT or CAPTURE written while a sequence runs is rejected: the error is recorded (CMD_BUSY if it is the first) and
nothing else changes (R112, R134, R152). -/
def Obligations.CommandWhileBusyRejected : Prop :=
  ∀ (s : State) (i : Instr), s.op ≠ .none → i = .init ∨ i = .capture →
    exec i s = .next { s with
      err := true, errovf := s.errovf || s.err,
      errcause := if s.err = true then s.errcause else .cmdBusy }

/-- The clamp of any frequency request, and SETCLK, which puts the clamped signed operand into FREQ: an operand in 1..500000
as it is, any other as 500000. Nothing else changes and no error is recorded, busy or idle (R85; the write is R115's). -/
def Obligations.SetclkClampsFrequency : Prop :=
  (∀ v : Int, (1 ≤ v ∧ v ≤ 500000 → (clampf v : Int) = v) ∧ (v < 1 ∨ 500000 < v → clampf v = 500000)) ∧
  ∀ (s : State) (d : Word), ∃ t, exec (.setclk d) s = .next t ∧
    (1 ≤ d.toInt ∧ d.toInt ≤ 500000 → (t.freq.toNat : Int) = d.toInt) ∧
    (d.toInt < 1 ∨ 500000 < d.toInt → t.freq.toNat = 500000) ∧
    t = { s with freq := t.freq }

/-- SETCLK is idempotent: writing the same value twice leaves the state of one write (R63). -/
def Obligations.SetclkIsIdempotent : Prop :=
  ∀ (s : State) (d : Word), andThen (exec (.setclk d) s) (exec (.setclk d)) = exec (.setclk d) s

/-- CLRERR, canonical word 0x100_0000_0003, clears ERR, ERROVF and ERRCAUSE in every state and changes nothing else (R117,
R135); after it the next rejected transaction is again a first error. -/
def Obligations.ClrerrClearsErrors : Prop :=
  encode .clrerr = 0x10000000003#41 ∧ ∀ s : State, exec .clrerr s = .next { s with err := false, errovf := false, errcause := .none } ∧
    ∀ c : ErrCause, ∃ t, exec .clrerr s = .next t ∧
      raiseHostError c t = { s with err := true, errovf := false, errcause := c }

/-- A reserved CMD write (OPC 4..15 or RSVD not 0) records RSVD_CMD, busy or idle: the reserved check comes before the
busy check (R112, R132, R136). Nothing else changes. -/
def Obligations.ReservedCommandRecordsRsvdCmd : Prop :=
  ∀ (s : State) (d : Word), d.toNat / 16 ≠ 0 ∨ 4 ≤ d.toNat % 16 →
    decode (txnWord true 0x00 d) = .illCmd d ∧
    exec (.illCmd d) s = .next { s with
      err := true, errovf := s.errovf || s.err,
      errcause := if s.err = true then s.errcause else .rsvdCmd }

/-- A write to wa 0x02..0x08 or 0x80..0xFF records WR_RO, one to wa 0x09..0x7F records UNMAPPED; the data is ignored and
nothing else changes, FRAME and the sequencer included (R130, R132). -/
def Obligations.IllegalWriteRecordsCauseByAddress : Prop :=
  ∀ (s : State) (wa : WordAddr) (d : Word), 2 ≤ wa.toNat →
    decode (txnWord true wa d) = .illWr wa d ∧
    exec (.illWr wa d) s = .next { s with
      err := true, errovf := s.errovf || s.err,
      errcause := if s.err = true then s.errcause
        else if wa.toNat ≤ 8 then .wrRo else if wa.toNat ≤ 0x7F then .unmapped else .wrRo }

/-! ## Reads -/

/-- RD_CMD, canonical word 0 with the data bits ignored, reads 0 and changes nothing but the read data: the last command
cannot be read back (R119). -/
def Obligations.CmdReadsZero : Prop :=
  encode .rdCmd = 0#41 ∧
  ∀ (s : State) (d : Word), decode (txnWord false 0x00 d) = .rdCmd ∧ busRead 0x00 s = 0 ∧
    exec .rdCmd s = .next { s with hRdata := 0 }

/-- RD_RSVD: wa in 0x09..0x7F, canonical word wa × 0x1_0000_0000, reads 0, no error (R129). -/
def Obligations.ReservedWordsReadZero : Prop :=
  ∀ (s : State) (wa : WordAddr), 9 ≤ wa.toNat → wa.toNat ≤ 0x7F →
    encode (.rdRsvd wa) = BitVec.ofNat 41 (wa.toNat * 0x100000000) ∧
    decode (BitVec.ofNat 41 (wa.toNat * 0x100000000)) = .rdRsvd wa ∧
    busRead wa s = 0 ∧ exec (.rdRsvd wa) s = .next { s with hRdata := 0 }

/-- RD_FREQ, RD_RISECNT and RD_SAMPCNT read their state elements zero-extended and change nothing but the read data
(R120, R126, R127, R118). -/
def Obligations.ElementReadsAreZeroExtended : Prop :=
  ∀ (s : State) (i : Instr) (n : Nat),
    (i = .rdFreq ∧ n = s.freq.toNat) ∨ (i = .rdRisecnt ∧ n = s.risecnt.toNat) ∨ (i = .rdSampcnt ∧ n = s.sampcnt.toNat) →
    ∃ t, exec i s = .next t ∧ t.hRdata.toNat = n ∧ t = { s with hRdata := t.hRdata }

/-- RD_ERRCAUSE reads the code of the recorded cause: NONE 0, CMD_BUSY 1, RSVD_CMD 2, WR_RO 3, UNMAPPED 4
(R124, R132). -/
def Obligations.ErrcauseReadsCauseCode : Prop :=
  ∀ s : State, ∃ t, exec .rdErrcause s = .next t ∧ t = { s with hRdata := t.hRdata } ∧ t.hRdata.toNat ≤ 4 ∧
    (t.hRdata.toNat = 0 ↔ s.errcause = .none) ∧ (t.hRdata.toNat = 1 ↔ s.errcause = .cmdBusy) ∧
    (t.hRdata.toNat = 2 ↔ s.errcause = .rsvdCmd) ∧ (t.hRdata.toNat = 3 ↔ s.errcause = .wrRo) ∧
    (t.hRdata.toNat = 4 ↔ s.errcause = .unmapped)

/-- RD_HALFCYC reads the least natural q with q × (2 × FREQ) ≥ F_SYS, for every F_SYS in range and every FREQ in
1..500000; it is in 1..2 147 483 648 (R121, R16, R18). -/
def Obligations.HalfcycIsLeastCover : Prop :=
  decode 0x00200000000#41 = .rdHalfcyc ∧
  ∀ s : State, s.par.wf → 1 ≤ s.freq.toNat → s.freq.toNat ≤ 500000 →
    ∃ t, exec .rdHalfcyc s = .next t ∧ t = { s with hRdata := t.hRdata } ∧
      s.par.fSys ≤ t.hRdata.toNat * (2 * s.freq.toNat) ∧
      (∀ q, s.par.fSys ≤ q * (2 * s.freq.toNat) → t.hRdata.toNat ≤ q) ∧
      1 ≤ t.hRdata.toNat ∧ t.hRdata.toNat ≤ 2147483648

/-- The settle delay that SETTLECYC shows and the settle hold lasts, whatever FREQ is, is the least natural q with
q × 100 000 ≥ F_SYS: at least 10 µs and less than one system clock cycle more (R87, R122, R16). -/
def Obligations.SettlecycIsLeastCover : Prop :=
  decode 0x00300000000#41 = .rdSettlecyc ∧
  ∀ s : State, s.par.wf →
    ∃ t, exec .rdSettlecyc s = .next t ∧ t = { s with hRdata := t.hRdata } ∧
      (∀ f, t.hRdata.toNat = dur s.par .settle f) ∧
      s.par.fSys ≤ t.hRdata.toNat * 100000 ∧ (∀ q, s.par.fSys ≤ q * 100000 → t.hRdata.toNat ≤ q) ∧
      10 ≤ t.hRdata.toNat ∧ t.hRdata.toNat ≤ 42950 ∧
      (1 / 100000 : Rat) ≤ (t.hRdata.toNat : Rat) / s.par.fSys ∧
      (t.hRdata.toNat : Rat) / s.par.fSys < 1 / 100000 + 1 / s.par.fSys

/-- R86: the half period that HALFCYC shows and a half hold lasts is never shorter than ClockPeriod = 1 / (2 × FREQ) and
longer by less than one system clock cycle, so the realised frequency exceeds neither FREQ nor 500 kHz; HALFCYC is at
least 1. -/
def Obligations.RealisedHalfPeriodBounds : Prop :=
  ∀ s : State, s.par.wf → 1 ≤ s.freq.toNat → s.freq.toNat ≤ 500000 →
    ∃ t, exec .rdHalfcyc s = .next t ∧ t.hRdata.toNat = dur s.par .half s.freq.toNat ∧
      clockPeriod s.freq.toNat ≤ (t.hRdata.toNat : Rat) / s.par.fSys ∧
      (t.hRdata.toNat : Rat) / s.par.fSys < clockPeriod s.freq.toNat + 1 / s.par.fSys ∧
      (s.par.fSys : Rat) / (2 * t.hRdata.toNat) ≤ s.freq.toNat ∧
      (s.par.fSys : Rat) / (2 * t.hRdata.toNat) ≤ 500000 ∧ 1 ≤ t.hRdata.toNat

/-- RD_STATUS bit by bit (R46, R47, R123): BUSY, INIT, FRAME_VALID, FRAME_NOINIT, ERR, ERROVF, STATE, SI, SCLK and
ADC_BUSY (the sample segments of CAPTURE are 277 + 3 × i), every other bit 0; nothing but the read data changes. -/
def Obligations.StatusFields : Prop :=
  decode 0x00400000000#41 = .rdStatus ∧
  ∀ s : State, ∃ t, exec .rdStatus s = .next t ∧ t = { s with hRdata := t.hRdata } ∧
    (t.hRdata.getLsbD 0 = true ↔ s.op ≠ .none) ∧ t.hRdata.getLsbD 1 = s.initd ∧ t.hRdata.getLsbD 2 = s.fvalid ∧
    t.hRdata.getLsbD 3 = s.fnoinit ∧ t.hRdata.getLsbD 4 = s.err ∧ t.hRdata.getLsbD 5 = s.errovf ∧
    t.hRdata.getLsbD 16 = s.si ∧ t.hRdata.getLsbD 17 = s.sclk ∧
    (t.hRdata.getLsbD 18 = true ↔ s.op = .capture ∧ ∃ i : Pixel, s.seg.toNat = 277 + 3 * i.val) ∧
    (t.hRdata.extractLsb' 8 3).toNat =
      (if s.op = .none then (if s.initd = true then 1 else 0) else if s.op = .init then 2
        else if s.seg.toNat ≤ 268 then 3 else 4) ∧
    (∀ k : Nat, k = 6 ∨ k = 7 ∨ (11 ≤ k ∧ k ≤ 15) ∨ 19 ≤ k → t.hRdata.getLsbD k = false)

/-- RD_POS (R49, R109, R125): 0 when idle; otherwise SEG in bits [9:0], BLOCK in [15:12], PCNT in [23:16], SUB in [25:24]
by the table of R109, every other bit 0; nothing but the read data changes. -/
def Obligations.PosFieldsRead : Prop :=
  decode 0x00600000000#41 = .rdPos ∧
  ∀ s : State, ∃ t, exec .rdPos s = .next t ∧ t = { s with hRdata := t.hRdata } ∧
    (s.op = .none → t.hRdata = 0) ∧
    (∀ block pcnt sub : Nat,
      (s.op = .init ∧ s.seg.toNat ≤ 1 ∧ block = 1 ∧ pcnt = 0 ∧ sub = s.seg.toNat) ∨
      (s.op = .init ∧ 2 ≤ s.seg.toNat ∧ s.seg.toNat ≤ 267 ∧ block = 2 ∧
        pcnt = (s.seg.toNat - 2) / 2 ∧ sub = (s.seg.toNat - 2) % 2) ∨
      (s.op = .capture ∧ s.seg.toNat ≤ 1 ∧ block = 3 ∧ pcnt = 0 ∧ sub = s.seg.toNat) ∨
      (s.op = .capture ∧ 2 ≤ s.seg.toNat ∧ s.seg.toNat ≤ 267 ∧ block = 4 ∧
        pcnt = (s.seg.toNat - 2) / 2 ∧ sub = (s.seg.toNat - 2) % 2) ∨
      (s.op = .capture ∧ s.seg.toNat = 268 ∧ block = 5 ∧ pcnt = 0 ∧ sub = 3) ∨
      (s.op = .capture ∧ 269 ≤ s.seg.toNat ∧ s.seg.toNat ≤ 270 ∧ block = 6 ∧ pcnt = 0 ∧ sub = s.seg.toNat - 269) ∨
      (s.op = .capture ∧ 271 ≤ s.seg.toNat ∧ s.seg.toNat ≤ 274 ∧ block = 7 ∧
        pcnt = (s.seg.toNat - 271) / 2 ∧ sub = (s.seg.toNat - 271) % 2) ∨
      (s.op = .capture ∧ 275 ≤ s.seg.toNat ∧ s.seg.toNat ≤ 658 ∧ block = 8 ∧
        pcnt = (s.seg.toNat - 275) / 3 ∧ sub = (s.seg.toNat - 275) % 3) ∨
      (s.op = .capture ∧ 659 ≤ s.seg.toNat ∧ s.seg.toNat ≤ 664 ∧ block = 9 ∧
        pcnt = (s.seg.toNat - 659) / 2 ∧ sub = (s.seg.toNat - 659) % 2) →
      t.hRdata.toNat = s.seg.toNat + block * 2 ^ 12 + pcnt * 2 ^ 16 + sub * 2 ^ 24)

/-- RD_FRAME (R128): a written entry is read as it is; an entry not written since reset gives some value with bits
[31:ADC_W] zero, which is FREE (log entry 4); either way nothing but the read data changes. -/
def Obligations.FrameReads : Prop :=
  ∀ (s : State) (i : Pixel), s.par.wf → ∃ t, exec (.rdFrame i) s = .next t ∧ t = { s with hRdata := t.hRdata } ∧
    (∀ v, s.frame[i] = some v → t.hRdata = v) ∧
    (s.frame[i] = none → t.hRdata.toNat < 2 ^ s.par.adcW)

/-! ## The waveform programs -/

/-- R106: prog(INIT) is the start pulse (segments 0 and 1) and 133 pulses (segments 2..267), SI low in every pulse, each
segment one half period; there is no segment 268. -/
def Obligations.InitProgramSegments : Prop :=
  ∀ k : Nat, (prog .init)[k]? =
    if k < 268 then some (.hold (decide (k < 2)) (decide (k % 2 = 1)) .half) else none

/-- R107: prog(CAPTURE) is a start pulse, 133 pulses, the settle hold (segment 268), a second start pulse, two discard
pulses, 128 sampled pulses with sample i at segment 277 + 3 × i, and three trailer pulses; there is no segment 665. -/
def Obligations.CaptureProgramSegments : Prop :=
  ∀ k : Nat, (prog .capture)[k]? =
    if k < 268 then some (.hold (decide (k < 2)) (decide (k % 2 = 1)) .half)
    else if k = 268 then some (.hold false true .settle)
    else if k < 275 then some (.hold (decide (k < 271)) (decide (k % 2 = 0)) .half)
    else if k < 659 then
      (if (k - 275) % 3 = 2 then some (.sample (Fin.ofNat 128 ((k - 275) / 3)))
        else some (.hold false (decide ((k - 275) % 3 = 1)) .half))
    else if k < 665 then some (.hold false (decide (k % 2 = 0)) .half)
    else none

/-- R108: the only sample segments are Sample(i) at segment 277 + 3 × i of CAPTURE, all in pass 2, and `adc_start_o` is
high only there, in the request phase. -/
def Obligations.SamplesOnlyInPassTwo : Prop :=
  (∀ (op : Op) (k : Nat) (i : Pixel), (prog op)[k]? = some (.sample i) ↔ op = .capture ∧ k = 277 + 3 * i.val) ∧
  (∀ s : State, (outputs s).adcStartO = true ↔
    s.op = .capture ∧ s.sph = .req ∧ ∃ i : Pixel, s.seg.toNat = 277 + 3 * i.val)

/-- R109: POS.SUB is 0 in a low half period, 1 in a high half period, 2 in a sample segment and 3 in the settle hold; in
P2_PIXELS a sample segment's PCNT is its pixel. -/
def Obligations.SubNamesTheSegmentKind : Prop :=
  ∀ (op : Op) (k : Nat),
    (∀ si ck, (prog op)[k]? = some (.hold si ck .half) → (posFields op k).sub = if ck = true then 1 else 0) ∧
    (∀ si ck, (prog op)[k]? = some (.hold si ck .settle) → (posFields op k).sub = 3) ∧
    (∀ i : Pixel, (prog op)[k]? = some (.sample i) →
      (posFields op k).sub = 2 ∧ (posFields op k).pcnt = i.val ∧ (posFields op k).block = .p2Pixels)

/-! ## The sequencer -/

/-- A cycle in a hold segment with TCNT > 0 counts down and changes nothing else, whatever the ADC says (R95, R97). -/
def Obligations.HoldCountsDown : Prop :=
  ∀ (s : State) (si ck : Bool) (d : HoldTime) (done : Bool) (data : Word),
    (prog s.op)[s.seg.toNat]? = some (.hold si ck d) → 0 < s.tcnt.toNat →
    ∃ t, sequencer done data s = .next t ∧ t.tcnt.toNat = s.tcnt.toNat - 1 ∧ t = { s with tcnt := t.tcnt }

/-- The last cycle of a hold segment loads the next segment with the FREQ of now (R94, R95, R98): a hold sets SI, the
sensor clock and the timer and counts a rising edge; a sample segment starts in its request phase with the lines
unchanged. Nothing else changes. -/
def Obligations.HoldEndLoadsNextSegment : Prop :=
  ∀ (s : State) (si ck : Bool) (d : HoldTime) (done : Bool) (data : Word),
    (prog s.op)[s.seg.toNat]? = some (.hold si ck d) → s.tcnt = 0 →
    (∀ si' ck' d', (prog s.op)[s.seg.toNat + 1]? = some (.hold si' ck' d') →
      sequencer done data s = .next { s with
        seg := s.seg + 1, si := si', sclk := ck',
        tcnt := BitVec.ofNat 32 ((match d' with | .half => halfcyc s.par s.freq.toNat | .settle => settlecyc s.par) - 1),
        risecnt := if s.sclk = false ∧ ck' = true then s.risecnt + 1 else s.risecnt }) ∧
    (∀ i, (prog s.op)[s.seg.toNat + 1]? = some (.sample i) →
      sequencer done data s = .next { s with seg := s.seg + 1, sph := .req })

/-- The last cycle of the last segment ends the sequence (R99): INIT sets INITD, CAPTURE sets FVALID, the lines keep
their levels, nothing else changes. The last segments are 267 and 664 (R106, R107). -/
def Obligations.LastSegmentEndsSequence : Prop :=
  ∀ (s : State) (done : Bool) (data : Word), s.tcnt = 0 →
    (s.op = .init → s.seg.toNat = 267 →
      sequencer done data s = .next { s with op := .none, seg := 0, initd := true }) ∧
    (s.op = .capture → s.seg.toNat = 664 →
      sequencer done data s = .next { s with op := .none, seg := 0, fvalid := true })

/-- The sample segment of pixel i (R96, R97): the request cycle shows `adc_start_o`, ignores the ADC and goes to WAIT;
a WAIT cycle without an answer changes nothing; a WAIT cycle with an answer stores its low ADC_W bits in FRAME[i] and nowhere
else, counts it and loads the next segment (sensor clock low, one half period). -/
def Obligations.SampleHandshake : Prop :=
  ∀ (s : State) (i : Pixel) (done : Bool) (data : Word), s.op = .capture → s.seg.toNat = 277 + 3 * i.val →
    (s.sph = .req → (outputs s).adcStartO = true ∧ sequencer done data s = .next { s with sph := .wait }) ∧
    (s.sph = .wait → done = false → sequencer done data s = .next s) ∧
    (s.sph = .wait → done = true → ∃ t, sequencer done data s = .next t ∧
      (∃ v, t.frame[i] = some v ∧ v.toNat = data.toNat % 2 ^ s.par.adcW) ∧
      (∀ j : Pixel, j ≠ i → t.frame[j] = s.frame[j]) ∧
      t = { s with
        frame := t.frame, sampcnt := s.sampcnt + 1, seg := s.seg + 1, si := false, sclk := false,
        tcnt := BitVec.ofNat 32 (halfcyc s.par s.freq.toNat - 1) })

/-! ## Who writes what -/

/-- R103: the host part and the sequencer part never write the same element. While a sequence runs every transaction
completes and changes only FREQ, ERR, ERROVF, ERRCAUSE and the read data; the sequencer part never writes these, nor
FNOINIT and the model's own fields. A host write to what the sequencer writes is made only where no sequence runs, and
there the sequencer part of the cycle does nothing, so that the cycle's outcome is the host part's. -/
def Obligations.HostAndSequencerWriteApart : Prop :=
  (∀ (i : Instr) (s : State), s.op ≠ .none → ∃ t, exec i s = .next t ∧
    t = { s with freq := t.freq, err := t.err, errovf := t.errovf, errcause := t.errcause, hRdata := t.hRdata }) ∧
  (∀ (s t : State) (done : Bool) (data : Word), sequencer done data s = .next t →
    t.freq = s.freq ∧ t.err = s.err ∧ t.errovf = s.errovf ∧ t.errcause = s.errcause ∧ t.fnoinit = s.fnoinit ∧
    t.hRdata = s.hRdata ∧ t.par = s.par ∧ t.stim = s.stim ∧ t.cycle = s.cycle) ∧
  (∀ (s a t : State) (inp : CycleInput) (u : Txn), inp.rst = false → inp.host = .txn u →
    exec (decode u.word) (driveRdata 0 s) = .next a → runCycle inp s = .next t → s.op = .none →
    t = { a with stim := a.stim.tail, cycle := a.cycle + 1 })

/-- A rejected transaction is precise (R134): the state after its cycle is the state the cycle would give without it,
except ERR, ERROVF and ERRCAUSE, which record it. -/
def Obligations.RejectionIsPrecise : Prop :=
  ∀ (s b : State) (inp : CycleInput) (t : Txn) (c : ErrCause), inp.rst = false → inp.host = .txn t →
    (t.we = true ∧ t.wa = 0 ∧ (t.data = 1 ∨ t.data = 2) ∧ s.op ≠ .none ∧ c = .cmdBusy) ∨
    (t.we = true ∧ t.wa = 0 ∧ 4 ≤ t.data.toNat ∧ c = .rsvdCmd) ∨
    (t.we = true ∧ 2 ≤ t.wa.toNat ∧ (t.wa.toNat ≤ 8 ∨ 0x80 ≤ t.wa.toNat) ∧ c = .wrRo) ∨
    (t.we = true ∧ 9 ≤ t.wa.toNat ∧ t.wa.toNat ≤ 0x7F ∧ c = .unmapped) →
    runCycle { inp with host := .idle } s = .next b →
    runCycle inp s = .next { b with
      err := true, errovf := s.errovf || s.err, errcause := if s.err = true then s.errcause else c }

/-- No transaction but a FREQ write alters a running sequence (R104): a cycle with it differs from the same cycle without
a transaction in ERR, ERROVF, ERRCAUSE and the read data alone. -/
def Obligations.OnlyFreqWriteTouchesRunningSequence : Prop :=
  ∀ (s b : State) (inp : CycleInput) (t : Txn), s.op ≠ .none → inp.rst = false → inp.host = .txn t →
    ¬ (t.we = true ∧ t.wa = 1) → runCycle { inp with host := .idle } s = .next b →
    ∃ a, runCycle inp s = .next a ∧
      a = { b with err := a.err, errovf := a.errovf, errcause := a.errcause, hRdata := a.hRdata }

/-- A FREQ write during a sequence (R100): the current hold keeps its timer and its levels; a half hold loaded at the end
of the write cycle has the new half period. -/
def Obligations.NewPeriodFromNextLoad : Prop :=
  ∀ (s : State) (inp : CycleInput) (d : Word) (si ck : Bool) (h : HoldTime), s.par.wf → inp.rst = false →
    inp.host = .txn ⟨true, 0x01, d⟩ → (prog s.op)[s.seg.toNat]? = some (.hold si ck h) →
    (0 < s.tcnt.toNat → ∃ t, runCycle inp s = .next t ∧ t.op = s.op ∧ t.seg = s.seg ∧ t.si = s.si ∧ t.sclk = s.sclk ∧
      t.tcnt.toNat = s.tcnt.toNat - 1) ∧
    (∀ si' ck', s.tcnt = 0 → (prog s.op)[s.seg.toNat + 1]? = some (.hold si' ck' .half) →
      ∃ t, runCycle inp s = .next t ∧ t.seg.toNat = s.seg.toNat + 1 ∧ t.si = si' ∧ t.sclk = ck' ∧
        t.tcnt.toNat + 1 =
          halfcyc s.par (if 1 ≤ d.toInt ∧ d.toInt ≤ 500000 then d.toInt.toNat else 500000))

/-- FREQ changes only by a FREQ write or reset (R36); the parameters never change (R25). -/
def Obligations.FreqChangesOnlyBySetclkOrReset : Prop :=
  ∀ s t : State, step s = .next t → t.par = s.par ∧
    (t.freq ≠ s.freq → (nextInput s).rst = true ∨
      ∃ u : Txn, presented (nextInput s).host = .next (some u) ∧ u.we = true ∧ u.wa = 1)

/-- INITD is set only by the end of an INIT sequence and cleared only by reset (R32). -/
def Obligations.InitdSetByInitEndClearedByReset : Prop :=
  ∀ s t : State, step s = .next t →
    ((nextInput s).rst = false → (t.initd = true ↔ s.initd = true ∨ (s.op = .init ∧ t.op = .none))) ∧
    ((nextInput s).rst = true → t.initd = false)

/-- The error elements are cleared only by CLRERR and reset: with ERR = 1 any other cycle keeps ERR, the first cause and a
recorded overflow (R135, R134). -/
def Obligations.ErrorsClearedOnlyByClrerrOrReset : Prop :=
  ∀ s t : State, step s = .next t → s.err = true → (nextInput s).rst = false →
    (∀ u : Txn, presented (nextInput s).host = .next (some u) → ¬ (u.we = true ∧ u.wa = 0 ∧ u.data = 3)) →
    t.err = true ∧ t.errcause = s.errcause ∧ (s.errovf = true → t.errovf = true)

/-- A FRAME entry changes only by reset or by the answered sample segment of its own pixel, which stores the low ADC_W
bits of the answer (R53, R96). -/
def Obligations.FrameWrittenOnlyBySample : Prop :=
  ∀ (s t : State) (j : Pixel), step s = .next t → (nextInput s).rst = false → t.frame[j] ≠ s.frame[j] →
    s.op = .capture ∧ s.seg.toNat = 277 + 3 * j.val ∧ s.sph = .wait ∧ (nextInput s).adcDone = true ∧
    t.frame[j] = some (BitVec.ofNat 32 ((nextInput s).adcData.toNat % 2 ^ s.par.adcW))

/-- While a sequence runs and without reset, SEG stays, moves forward by one, or the sequence ends after its last segment
(R40, R98, R99). -/
def Obligations.SegNeverJumps : Prop :=
  ∀ s t : State, s.op ≠ .none → step s = .next t → (nextInput s).rst = false →
    (t.op = s.op ∧ (t.seg = s.seg ∨ t.seg.toNat = s.seg.toNat + 1)) ∨
    (t.op = .none ∧ t.seg = 0 ∧ s.seg.toNat + 1 = (prog s.op).length)

/-- While a sequence runs and without reset, RISECNT goes up by one exactly in the cycles after which the sensor clock
shows a rising edge (R37, R21). -/
def Obligations.RisecntCountsRisingEdges : Prop :=
  ∀ s t : State, s.op ≠ .none → step s = .next t → (nextInput s).rst = false →
    t.risecnt = if s.sclk = false ∧ t.sclk = true then s.risecnt + 1 else s.risecnt

/-! ## Invariants -/

/-- The reset state is legal for all parameters in range, and so are the reset state of this hardware (R56) and the state after
the first cycle from power-up, whatever the block held before it (R147, R145). -/
def Obligations.ResetStateIsLegal : Prop :=
  (∀ p : Config.Params, p.wf → Legal (State.resetOf p)) ∧ Legal State.reset ∧
  ∀ s : State, PowerUp s → ∃ t, step s = .next t ∧ Legal t

/-- Every step from a legal state, whatever its inputs, gives a legal state (R26..R38, R53, R110, R135). -/
def Obligations.StepKeepsLegalStates : Prop :=
  ∀ s t : State, Legal s → step s = .next t → Legal t

/-- From a legal state a step always completes, unless the host side is a bridge that presents an access that is narrow, wide or
misaligned (R61), or one beyond the 256 words of R57 (the model's reading, log entry 9): no fault exists (R133), no transaction
is refused. -/
def Obligations.LegalStatesNeverStop : Prop :=
  ∀ s : State, Legal s → (∃ t, step s = .next t) ∨
    ∃ a : BridgeAccess, (nextInput s).host = .bridged a ∧ (a.width ≠ 4 ∨ a.offset % 4 ≠ 0 ∨ 1024 ≤ a.offset)

/-- SI changes only with the sensor clock low (R155): after a step in which SI changes, the sensor clock is low. -/
def Obligations.SiChangesWithClockLow : Prop :=
  ∀ s t : State, Legal s → step s = .next t → t.si ≠ s.si → t.sclk = false

/-! ## Runs -/

/-- R97, U5: while the ADC does not answer and no reset comes, a sample segment in WAIT lasts, for any number of cycles,
whatever transactions the host presents: OP, SEG, SPH, the lines, the counts and FRAME stay, BUSY stays 1. -/
def Obligations.UnansweredSampleHangs : Prop :=
  ∀ (ins : List CycleInput) (s : State) (i : Pixel), s.op = .capture → s.seg.toNat = 277 + 3 * i.val → s.sph = .wait →
    (∀ inp ∈ ins, inp.rst = false ∧ inp.adcDone = false ∧ ∃ o, presented inp.host = .next o) →
    ∃ t, run ins.length { s with stim := ins ++ s.stim } = .next t ∧ t.op = .capture ∧ t.seg = s.seg ∧ t.sph = .wait ∧
      t.si = s.si ∧ t.sclk = s.sclk ∧ t.risecnt = s.risecnt ∧ t.sampcnt = s.sampcnt ∧ t.frame = s.frame ∧
      (outputs t).busyO = true ∧ (outputs t).adcStartO = false

/-- R159: an INIT accepted by an idle block, without a reset and without a FREQ write, lasts exactly 268 × H cycles,
H = halfcyc(FREQ), whatever other transactions the host presents: segment k is current in the cycles t0 + 1 + k × H to t0 + (k + 1) × H, and after them the block
is idle and READY, with 134 rising edges, no sample and FRAME untouched (R113). -/
def Obligations.InitDuration : Prop :=
  ∀ (s : State) (first : CycleInput) (ins : List CycleInput), Legal s → s.op = .none →
    first.rst = false → first.host = .txn ⟨true, 0x00, 1⟩ → (∀ inp ∈ ins, calm inp = true) →
    ins.length = 268 * halfcyc s.par s.freq.toNat →
    (∀ k r : Nat, k < 268 → r < halfcyc s.par s.freq.toNat →
      ∃ u, run (1 + k * halfcyc s.par s.freq.toNat + r) { s with stim := first :: ins } = .next u ∧
        u.op = .init ∧ u.seg.toNat = k ∧ u.si = decide (k < 2) ∧ u.sclk = decide (k % 2 = 1)) ∧
    ∃ t, run (1 + 268 * halfcyc s.par s.freq.toNat) { s with stim := first :: ins } = .next t ∧
      t.op = .none ∧ t.initd = true ∧ t.risecnt = 134 ∧ t.sampcnt = 0 ∧ t.frame = s.frame ∧
      t.si = false ∧ t.sclk = true ∧ t.fvalid = s.fvalid ∧ t.fnoinit = s.fnoinit

/-- R160 with every ADC latency 1 (an ADC that holds `adc_done_i = 1`, R154): a CAPTURE accepted by an idle block,
without a reset and without a FREQ write, lasts exactly 536 × H + S + 256 cycles; it is busy until then, and after it the block is idle with 268
rising edges, 128 samples, FVALID = 1, every FRAME entry written and INITD as it was (R114). -/
def Obligations.CaptureDuration : Prop :=
  ∀ (s : State) (first : CycleInput) (ins : List CycleInput), Legal s → s.op = .none →
    first.rst = false → first.host = .txn ⟨true, 0x00, 2⟩ →
    (∀ inp ∈ ins, calm inp = true ∧ inp.adcDone = true) →
    ins.length = 536 * halfcyc s.par s.freq.toNat + settlecyc s.par + 256 →
    (∀ n, n < ins.length → ∃ u, run (1 + n) { s with stim := first :: ins } = .next u ∧ u.op = .capture) ∧
    ∃ t, run (1 + ins.length) { s with stim := first :: ins } = .next t ∧
      t.op = .none ∧ t.risecnt = 268 ∧ t.sampcnt = 128 ∧ t.fvalid = true ∧ t.fnoinit = (!s.initd) ∧
      t.initd = s.initd ∧ (∀ i : Pixel, (t.frame[i]).isSome) ∧ t.si = false ∧ t.sclk = true

/-- The trace of an INIT (R110, R11). First, from any cycle of it to its last, without a reset and whatever else comes in these
cycles, FREQ writes included: the rising edges of the sensor clock still to come and those counted so far are 134; SI falls once
if it is still high and not otherwise; there is no sample request; the block is busy in all of these cycles. From the cycle after
acceptance on, where RISECNT is 0 and SI high (InitAcceptedWhenIdle), these are the counts of the whole INIT. Second, from the
cycle of acceptance and without a FREQ write too, where the INIT lasts 268 × H cycles (R159): 134, 1, 0, and busy for 268 × H
cycles. -/
def Obligations.InitTraceCounts : Prop :=
  (∀ (s : State) (ins : List CycleInput), Legal s → s.op = .init → (∀ inp ∈ ins, inp.rst = false) →
    lasts .init ins.length { s with stim := ins } = true →
    ∀ tr, tr = trace ins.length { s with stim := ins } →
      rises s.sclk (tr.map (·.sclkO)) + s.risecnt.toNat = 134 ∧
      falls s.si (tr.map (·.siO)) = (if s.si = true then 1 else 0) ∧
      tr.countP (·.adcStartO) = 0 ∧ tr.countP (·.busyO) = ins.length) ∧
  ∀ (s : State) (first : CycleInput) (ins : List CycleInput), Legal s → s.op = .none →
    first.rst = false → first.host = .txn ⟨true, 0x00, 1⟩ → (∀ inp ∈ ins, calm inp = true) →
    ins.length = 268 * halfcyc s.par s.freq.toNat →
    ∀ tr, tr = trace (1 + ins.length) { s with stim := first :: ins } →
      rises s.sclk (tr.map (·.sclkO)) = 134 ∧ falls s.si (tr.map (·.siO)) = 1 ∧
      tr.countP (·.adcStartO) = 0 ∧ tr.countP (·.busyO) = 268 * halfcyc s.par s.freq.toNat

/-- The trace of a CAPTURE (R110, R97, R11). First, from any cycle of it to its last, without a reset and whatever else comes in
these cycles, FREQ writes and every ADC latency included: the rising edges of the sensor clock still to come and those counted so
far are 268 (not 272: C3); SI falls once more if it is high, and once more for a second START still to come; the sample requests
still to come, those answered and the one waiting are 128; the block is busy in all of these cycles. From the cycle after
acceptance on, where RISECNT and SAMPCNT are 0 and SI high (CaptureAcceptedWhenIdle), these are the counts of the whole CAPTURE:
268, 2 and 128. Second, from the cycle of acceptance, without a FREQ write too and with an ADC that holds `adc_done_i = 1` (every
latency 1), where the CAPTURE lasts 536 × H + S + 256 cycles (R160): 268, 2, 128, and busy for that many cycles. -/
def Obligations.CaptureTraceCounts : Prop :=
  (∀ (s : State) (ins : List CycleInput), Legal s → s.op = .capture → (∀ inp ∈ ins, inp.rst = false) →
    lasts .capture ins.length { s with stim := ins } = true →
    ∀ tr, tr = trace ins.length { s with stim := ins } →
      rises s.sclk (tr.map (·.sclkO)) + s.risecnt.toNat = 268 ∧
      falls s.si (tr.map (·.siO)) = (if s.si = true then 1 else 0) + (if s.seg.toNat ≤ 268 then 1 else 0) ∧
      tr.countP (·.adcStartO) + s.sampcnt.toNat + (if adcBusy s = true ∧ s.sph = .wait then 1 else 0) = 128 ∧
      tr.countP (·.busyO) = ins.length) ∧
  ∀ (s : State) (first : CycleInput) (ins : List CycleInput), Legal s → s.op = .none →
    first.rst = false → first.host = .txn ⟨true, 0x00, 2⟩ →
    (∀ inp ∈ ins, calm inp = true ∧ inp.adcDone = true) →
    ins.length = 536 * halfcyc s.par s.freq.toNat + settlecyc s.par + 256 →
    ∀ tr, tr = trace (1 + ins.length) { s with stim := first :: ins } →
      rises s.sclk (tr.map (·.sclkO)) = 268 ∧ falls s.si (tr.map (·.siO)) = 2 ∧
      tr.countP (·.adcStartO) = 128 ∧
      tr.countP (·.busyO) = 536 * halfcyc s.par s.freq.toNat + settlecyc s.par + 256

/-! ## The bridge -/

/-- A byte-addressed bridge. A whole aligned access at byte offset 4 × wa reaches word wa, and bits [8b+7:8b] of the word
are the byte at offset 4 × wa + b (R60). A narrow, wide or misaligned access is refused by name in a cycle without reset
(R61); an offset beyond the 256 words of R57 likewise (the model's reading, log entry 9). -/
def Obligations.BridgeIsLittleEndianWordsOnly : Prop :=
  (∀ a : BridgeAccess, a.width = 4 → a.offset % 4 = 0 → a.offset < 1024 →
    ∃ t, bridgeTxn a = .next t ∧ t.we = a.we ∧ 4 * t.wa.toNat = a.offset ∧
      bridgeByte t.data 0 = a.byte0 ∧ bridgeByte t.data 1 = a.byte1 ∧
      bridgeByte t.data 2 = a.byte2 ∧ bridgeByte t.data 3 = a.byte3) ∧
  (∀ (s : State) (a : BridgeAccess), (nextInput s).rst = false → (nextInput s).host = .bridged a →
    (a.width ≠ 4 → step s = .refused .bridgeWidth) ∧
    (a.width = 4 → a.offset % 4 ≠ 0 → step s = .refused .bridgeMisaligned) ∧
    (a.width = 4 → a.offset % 4 = 0 → 1024 ≤ a.offset → step s = .refused .bridgeOutside))
end

