-- ==== Sys2Proof/Laws/Decode.lean ====
section
/-!
SUPPORT. The fields of a canonical transaction word (R73): putting them together and taking them apart.
-/

namespace Sys2Proof

theorem txnWord_toNat (we : Bool) (wa : WordAddr) (data : Word) :
    (txnWord we wa data).toNat = we.toNat * 0x10000000000 + wa.toNat * 0x100000000 + data.toNat := by
  have h1 := wa.isLt
  have h2 := data.isLt
  cases we <;> simp [txnWord] <;> omega

@[simp] theorem txnWord_we (we : Bool) (wa : WordAddr) (data : Word) : (txnWord we wa data).we = we := by
  have h1 := wa.isLt
  have h2 := data.isLt
  unfold TxnWord.we
  rw [← BitVec.testBit_toNat, txnWord_toNat, Nat.testBit_eq_decide_div_mod_eq]
  cases we <;> simp <;> omega

@[simp] theorem txnWord_wa (we : Bool) (wa : WordAddr) (data : Word) : (txnWord we wa data).wa = wa := by
  have h1 := wa.isLt
  have h2 := data.isLt
  apply BitVec.eq_of_toNat_eq
  unfold TxnWord.wa
  rw [BitVec.extractLsb'_toNat, txnWord_toNat, Nat.shiftRight_eq_div_pow]
  omega

@[simp] theorem txnWord_data (we : Bool) (wa : WordAddr) (data : Word) : (txnWord we wa data).data = data := by
  have h1 := wa.isLt
  have h2 := data.isLt
  apply BitVec.eq_of_toNat_eq
  unfold TxnWord.data
  rw [BitVec.extractLsb'_toNat, txnWord_toNat, Nat.shiftRight_eq_div_pow]
  omega

/-- A word is put together from its own fields. -/
theorem txnWord_fields (t : TxnWord) : txnWord t.we t.wa t.data = t := by
  have h := t.isLt
  apply BitVec.eq_of_toNat_eq
  rw [txnWord_toNat]
  unfold TxnWord.we TxnWord.wa TxnWord.data
  rw [← BitVec.testBit_toNat, Nat.testBit_eq_decide_div_mod_eq, BitVec.extractLsb'_toNat, BitVec.extractLsb'_toNat,
    Nat.shiftRight_eq_div_pow, Nat.shiftRight_eq_div_pow]
  by_cases hb : t.toNat / 1099511627776 % 2 = 1 <;> simp [hb] <;> omega

/-- Decoding a word put together from fields. -/
theorem decode_txnWord (we : Bool) (wa : WordAddr) (data : Word) :
    decode (txnWord we wa data) = if we then decodeWrite wa data else decodeRead wa := by
  simp [decode]

@[simp] theorem txn_word_we (t : Machine.Txn) : t.word.we = t.we := by simp [Machine.Txn.word]

@[simp] theorem txn_word_wa (t : Machine.Txn) : t.word.wa = t.wa := by simp [Machine.Txn.word]

@[simp] theorem txn_word_data (t : Machine.Txn) : t.word.data = t.data := by simp [Machine.Txn.word]

end Sys2Proof
end

