-- ==== Sys2Proof/Laws/Operands.lean ====
section
/-!
SUPPORT. What the block's arithmetic gives: the clamp stays in range, and the half period and the settle delay are the
ceilings that R16 says, in the ranges that R16 says.
-/

namespace Sys2Proof.Machine

open Sys2Proof.Config (Params)

/-- The clamp stays in 1..500000 (R85, R36). -/
theorem clampf_range (v : Int) : 1 ≤ clampf v ∧ clampf v ≤ 500000 := by
  unfold clampf Config.fMax Config.fDefault
  split <;> omega

/-- FREQ holds the clamped value itself: 19 bits suffice (R17). -/
theorem clampFreq_toNat (v : Int) : (clampFreq v).toNat = clampf v := by
  have h := clampf_range v
  simp only [clampFreq, BitVec.toNat_ofNat]
  omega

/-- `ceil_div(a, b)` covers `a`, with less than one `b` to spare (R18). -/
theorem ceilDiv_cover (a b : Nat) (h : 0 < b) : a ≤ ceilDiv a b * b ∧ ceilDiv a b * b < a + b := by
  unfold ceilDiv
  have h1 := Nat.div_add_mod (a + (b - 1)) b
  have h2 := Nat.mod_lt (a + (b - 1)) h
  rw [Nat.mul_comm] at h1
  omega

/-- No smaller number covers `a` (R18). -/
theorem ceilDiv_least {a b q : Nat} (h : 0 < b) (hq : a ≤ q * b) : ceilDiv a b ≤ q := by
  have h1 := (ceilDiv_cover a b h).2
  by_contra hc
  have h2 : (q + 1) * b ≤ ceilDiv a b * b := Nat.mul_le_mul_right b (by omega)
  rw [Nat.add_mul, Nat.one_mul] at h2
  omega

/-- The half period of a legal frequency is in 1..2 147 483 648 (R16). -/
theorem halfcyc_range {p : Params} (hp : p.wf) {f : Nat} (h1 : 1 ≤ f) (h2 : f ≤ 500000) :
    1 ≤ halfcyc p f ∧ halfcyc p f ≤ 2147483648 := by
  have hF := hp.1
  have hc := (ceilDiv_cover p.fSys (2 * f) (by omega)).1
  constructor
  · rcases Nat.eq_zero_or_pos (halfcyc p f) with h | h
    · unfold halfcyc at h
      rw [h] at hc
      omega
    · exact h
  · exact ceilDiv_least (by omega) (by omega)

/-- The settle delay is `ceil_div(F_SYS, 100 000)`, in 10..42 950 (R16). -/
theorem settlecyc_range {p : Params} (hp : p.wf) :
    settlecyc p = (p.fSys + 99999) / 100000 ∧ 10 ≤ settlecyc p ∧ settlecyc p ≤ 42950 := by
  have hF := hp.1
  have e : settlecyc p = (p.fSys + 99999) / 100000 := by
    simp only [settlecyc, ceilDiv, Config.settleUs]
    omega
  rw [e]
  omega

end Sys2Proof.Machine
end

