-- ==== Sys2Proof/Laws/State.lean ====
section
/-!
SUPPORT. What each named update of the state does to each field: one lemma per field per update, so that no later proof
unfolds a record update.
-/

namespace Sys2Proof.Machine

/-! ## driveRdata -/

@[simp] theorem driveRdata_op (v : Word) (s : State) : (driveRdata v s).op = s.op := rfl
@[simp] theorem driveRdata_seg (v : Word) (s : State) : (driveRdata v s).seg = s.seg := rfl
@[simp] theorem driveRdata_tcnt (v : Word) (s : State) : (driveRdata v s).tcnt = s.tcnt := rfl
@[simp] theorem driveRdata_sph (v : Word) (s : State) : (driveRdata v s).sph = s.sph := rfl
@[simp] theorem driveRdata_si (v : Word) (s : State) : (driveRdata v s).si = s.si := rfl
@[simp] theorem driveRdata_sclk (v : Word) (s : State) : (driveRdata v s).sclk = s.sclk := rfl
@[simp] theorem driveRdata_initd (v : Word) (s : State) : (driveRdata v s).initd = s.initd := rfl
@[simp] theorem driveRdata_fvalid (v : Word) (s : State) : (driveRdata v s).fvalid = s.fvalid := rfl
@[simp] theorem driveRdata_fnoinit (v : Word) (s : State) : (driveRdata v s).fnoinit = s.fnoinit := rfl
@[simp] theorem driveRdata_err (v : Word) (s : State) : (driveRdata v s).err = s.err := rfl
@[simp] theorem driveRdata_errovf (v : Word) (s : State) : (driveRdata v s).errovf = s.errovf := rfl
@[simp] theorem driveRdata_errcause (v : Word) (s : State) : (driveRdata v s).errcause = s.errcause := rfl
@[simp] theorem driveRdata_freq (v : Word) (s : State) : (driveRdata v s).freq = s.freq := rfl
@[simp] theorem driveRdata_risecnt (v : Word) (s : State) : (driveRdata v s).risecnt = s.risecnt := rfl
@[simp] theorem driveRdata_sampcnt (v : Word) (s : State) : (driveRdata v s).sampcnt = s.sampcnt := rfl
@[simp] theorem driveRdata_frame (v : Word) (s : State) : (driveRdata v s).frame = s.frame := rfl
@[simp] theorem driveRdata_hRdata (v : Word) (s : State) : (driveRdata v s).hRdata = v := rfl
@[simp] theorem driveRdata_par (v : Word) (s : State) : (driveRdata v s).par = s.par := rfl
@[simp] theorem driveRdata_stim (v : Word) (s : State) : (driveRdata v s).stim = s.stim := rfl
@[simp] theorem driveRdata_cycle (v : Word) (s : State) : (driveRdata v s).cycle = s.cycle := rfl

/-! ## clearErrors -/

@[simp] theorem clearErrors_op (s : State) : (clearErrors s).op = s.op := rfl
@[simp] theorem clearErrors_seg (s : State) : (clearErrors s).seg = s.seg := rfl
@[simp] theorem clearErrors_tcnt (s : State) : (clearErrors s).tcnt = s.tcnt := rfl
@[simp] theorem clearErrors_sph (s : State) : (clearErrors s).sph = s.sph := rfl
@[simp] theorem clearErrors_si (s : State) : (clearErrors s).si = s.si := rfl
@[simp] theorem clearErrors_sclk (s : State) : (clearErrors s).sclk = s.sclk := rfl
@[simp] theorem clearErrors_initd (s : State) : (clearErrors s).initd = s.initd := rfl
@[simp] theorem clearErrors_fvalid (s : State) : (clearErrors s).fvalid = s.fvalid := rfl
@[simp] theorem clearErrors_fnoinit (s : State) : (clearErrors s).fnoinit = s.fnoinit := rfl
@[simp] theorem clearErrors_err (s : State) : (clearErrors s).err = false := rfl
@[simp] theorem clearErrors_errovf (s : State) : (clearErrors s).errovf = false := rfl
@[simp] theorem clearErrors_errcause (s : State) : (clearErrors s).errcause = .none := rfl
@[simp] theorem clearErrors_freq (s : State) : (clearErrors s).freq = s.freq := rfl
@[simp] theorem clearErrors_risecnt (s : State) : (clearErrors s).risecnt = s.risecnt := rfl
@[simp] theorem clearErrors_sampcnt (s : State) : (clearErrors s).sampcnt = s.sampcnt := rfl
@[simp] theorem clearErrors_frame (s : State) : (clearErrors s).frame = s.frame := rfl
@[simp] theorem clearErrors_hRdata (s : State) : (clearErrors s).hRdata = s.hRdata := rfl
@[simp] theorem clearErrors_par (s : State) : (clearErrors s).par = s.par := rfl
@[simp] theorem clearErrors_stim (s : State) : (clearErrors s).stim = s.stim := rfl
@[simp] theorem clearErrors_cycle (s : State) : (clearErrors s).cycle = s.cycle := rfl

/-! ## writeFreq -/

@[simp] theorem writeFreq_op (d : Word) (s : State) : (writeFreq d s).op = s.op := rfl
@[simp] theorem writeFreq_seg (d : Word) (s : State) : (writeFreq d s).seg = s.seg := rfl
@[simp] theorem writeFreq_tcnt (d : Word) (s : State) : (writeFreq d s).tcnt = s.tcnt := rfl
@[simp] theorem writeFreq_sph (d : Word) (s : State) : (writeFreq d s).sph = s.sph := rfl
@[simp] theorem writeFreq_si (d : Word) (s : State) : (writeFreq d s).si = s.si := rfl
@[simp] theorem writeFreq_sclk (d : Word) (s : State) : (writeFreq d s).sclk = s.sclk := rfl
@[simp] theorem writeFreq_initd (d : Word) (s : State) : (writeFreq d s).initd = s.initd := rfl
@[simp] theorem writeFreq_fvalid (d : Word) (s : State) : (writeFreq d s).fvalid = s.fvalid := rfl
@[simp] theorem writeFreq_fnoinit (d : Word) (s : State) : (writeFreq d s).fnoinit = s.fnoinit := rfl
@[simp] theorem writeFreq_err (d : Word) (s : State) : (writeFreq d s).err = s.err := rfl
@[simp] theorem writeFreq_errovf (d : Word) (s : State) : (writeFreq d s).errovf = s.errovf := rfl
@[simp] theorem writeFreq_errcause (d : Word) (s : State) : (writeFreq d s).errcause = s.errcause := rfl
@[simp] theorem writeFreq_freq (d : Word) (s : State) : (writeFreq d s).freq = clampFreq (sint32 d) := rfl
@[simp] theorem writeFreq_risecnt (d : Word) (s : State) : (writeFreq d s).risecnt = s.risecnt := rfl
@[simp] theorem writeFreq_sampcnt (d : Word) (s : State) : (writeFreq d s).sampcnt = s.sampcnt := rfl
@[simp] theorem writeFreq_frame (d : Word) (s : State) : (writeFreq d s).frame = s.frame := rfl
@[simp] theorem writeFreq_hRdata (d : Word) (s : State) : (writeFreq d s).hRdata = s.hRdata := rfl
@[simp] theorem writeFreq_par (d : Word) (s : State) : (writeFreq d s).par = s.par := rfl
@[simp] theorem writeFreq_stim (d : Word) (s : State) : (writeFreq d s).stim = s.stim := rfl
@[simp] theorem writeFreq_cycle (d : Word) (s : State) : (writeFreq d s).cycle = s.cycle := rfl

/-! ## storeSample -/

@[simp] theorem storeSample_op (i : Pixel) (v : Word) (s : State) : (storeSample i v s).op = s.op := rfl
@[simp] theorem storeSample_seg (i : Pixel) (v : Word) (s : State) : (storeSample i v s).seg = s.seg := rfl
@[simp] theorem storeSample_tcnt (i : Pixel) (v : Word) (s : State) : (storeSample i v s).tcnt = s.tcnt := rfl
@[simp] theorem storeSample_sph (i : Pixel) (v : Word) (s : State) : (storeSample i v s).sph = s.sph := rfl
@[simp] theorem storeSample_si (i : Pixel) (v : Word) (s : State) : (storeSample i v s).si = s.si := rfl
@[simp] theorem storeSample_sclk (i : Pixel) (v : Word) (s : State) : (storeSample i v s).sclk = s.sclk := rfl
@[simp] theorem storeSample_initd (i : Pixel) (v : Word) (s : State) : (storeSample i v s).initd = s.initd := rfl
@[simp] theorem storeSample_fvalid (i : Pixel) (v : Word) (s : State) : (storeSample i v s).fvalid = s.fvalid := rfl
@[simp] theorem storeSample_fnoinit (i : Pixel) (v : Word) (s : State) : (storeSample i v s).fnoinit = s.fnoinit := rfl
@[simp] theorem storeSample_err (i : Pixel) (v : Word) (s : State) : (storeSample i v s).err = s.err := rfl
@[simp] theorem storeSample_errovf (i : Pixel) (v : Word) (s : State) : (storeSample i v s).errovf = s.errovf := rfl
@[simp] theorem storeSample_errcause (i : Pixel) (v : Word) (s : State) : (storeSample i v s).errcause = s.errcause := rfl
@[simp] theorem storeSample_freq (i : Pixel) (v : Word) (s : State) : (storeSample i v s).freq = s.freq := rfl
@[simp] theorem storeSample_risecnt (i : Pixel) (v : Word) (s : State) : (storeSample i v s).risecnt = s.risecnt := rfl
@[simp] theorem storeSample_sampcnt (i : Pixel) (v : Word) (s : State) : (storeSample i v s).sampcnt = s.sampcnt + 1 := rfl
@[simp] theorem storeSample_frame (i : Pixel) (v : Word) (s : State) : (storeSample i v s).frame = s.frame.set i (some (lowBits s.par.adcW v)) := rfl
@[simp] theorem storeSample_hRdata (i : Pixel) (v : Word) (s : State) : (storeSample i v s).hRdata = s.hRdata := rfl
@[simp] theorem storeSample_par (i : Pixel) (v : Word) (s : State) : (storeSample i v s).par = s.par := rfl
@[simp] theorem storeSample_stim (i : Pixel) (v : Word) (s : State) : (storeSample i v s).stim = s.stim := rfl
@[simp] theorem storeSample_cycle (i : Pixel) (v : Word) (s : State) : (storeSample i v s).cycle = s.cycle := rfl

/-! ## finish -/

@[simp] theorem finish_op (s : State) : (finish s).op = .none := rfl
@[simp] theorem finish_seg (s : State) : (finish s).seg = 0 := rfl
@[simp] theorem finish_tcnt (s : State) : (finish s).tcnt = s.tcnt := rfl
@[simp] theorem finish_sph (s : State) : (finish s).sph = s.sph := rfl
@[simp] theorem finish_si (s : State) : (finish s).si = s.si := rfl
@[simp] theorem finish_sclk (s : State) : (finish s).sclk = s.sclk := rfl
@[simp] theorem finish_initd (s : State) : (finish s).initd = (s.initd || decide (s.op = .init)) := rfl
@[simp] theorem finish_fvalid (s : State) : (finish s).fvalid = (s.fvalid || decide (s.op = .capture)) := rfl
@[simp] theorem finish_fnoinit (s : State) : (finish s).fnoinit = s.fnoinit := rfl
@[simp] theorem finish_err (s : State) : (finish s).err = s.err := rfl
@[simp] theorem finish_errovf (s : State) : (finish s).errovf = s.errovf := rfl
@[simp] theorem finish_errcause (s : State) : (finish s).errcause = s.errcause := rfl
@[simp] theorem finish_freq (s : State) : (finish s).freq = s.freq := rfl
@[simp] theorem finish_risecnt (s : State) : (finish s).risecnt = s.risecnt := rfl
@[simp] theorem finish_sampcnt (s : State) : (finish s).sampcnt = s.sampcnt := rfl
@[simp] theorem finish_frame (s : State) : (finish s).frame = s.frame := rfl
@[simp] theorem finish_hRdata (s : State) : (finish s).hRdata = s.hRdata := rfl
@[simp] theorem finish_par (s : State) : (finish s).par = s.par := rfl
@[simp] theorem finish_stim (s : State) : (finish s).stim = s.stim := rfl
@[simp] theorem finish_cycle (s : State) : (finish s).cycle = s.cycle := rfl

/-! ## elapse -/

@[simp] theorem elapse_op (s : State) : (elapse s).op = s.op := rfl
@[simp] theorem elapse_seg (s : State) : (elapse s).seg = s.seg := rfl
@[simp] theorem elapse_tcnt (s : State) : (elapse s).tcnt = s.tcnt := rfl
@[simp] theorem elapse_sph (s : State) : (elapse s).sph = s.sph := rfl
@[simp] theorem elapse_si (s : State) : (elapse s).si = s.si := rfl
@[simp] theorem elapse_sclk (s : State) : (elapse s).sclk = s.sclk := rfl
@[simp] theorem elapse_initd (s : State) : (elapse s).initd = s.initd := rfl
@[simp] theorem elapse_fvalid (s : State) : (elapse s).fvalid = s.fvalid := rfl
@[simp] theorem elapse_fnoinit (s : State) : (elapse s).fnoinit = s.fnoinit := rfl
@[simp] theorem elapse_err (s : State) : (elapse s).err = s.err := rfl
@[simp] theorem elapse_errovf (s : State) : (elapse s).errovf = s.errovf := rfl
@[simp] theorem elapse_errcause (s : State) : (elapse s).errcause = s.errcause := rfl
@[simp] theorem elapse_freq (s : State) : (elapse s).freq = s.freq := rfl
@[simp] theorem elapse_risecnt (s : State) : (elapse s).risecnt = s.risecnt := rfl
@[simp] theorem elapse_sampcnt (s : State) : (elapse s).sampcnt = s.sampcnt := rfl
@[simp] theorem elapse_frame (s : State) : (elapse s).frame = s.frame := rfl
@[simp] theorem elapse_hRdata (s : State) : (elapse s).hRdata = s.hRdata := rfl
@[simp] theorem elapse_par (s : State) : (elapse s).par = s.par := rfl
@[simp] theorem elapse_stim (s : State) : (elapse s).stim = s.stim.tail := rfl
@[simp] theorem elapse_cycle (s : State) : (elapse s).cycle = s.cycle + 1 := rfl

/-! ## raiseHostError -/

@[simp] theorem raiseHostError_op (c : ErrCause) (s : State) : (raiseHostError c s).op = s.op := by
  unfold raiseHostError; split <;> rfl
@[simp] theorem raiseHostError_seg (c : ErrCause) (s : State) : (raiseHostError c s).seg = s.seg := by
  unfold raiseHostError; split <;> rfl
@[simp] theorem raiseHostError_tcnt (c : ErrCause) (s : State) : (raiseHostError c s).tcnt = s.tcnt := by
  unfold raiseHostError; split <;> rfl
@[simp] theorem raiseHostError_sph (c : ErrCause) (s : State) : (raiseHostError c s).sph = s.sph := by
  unfold raiseHostError; split <;> rfl
@[simp] theorem raiseHostError_si (c : ErrCause) (s : State) : (raiseHostError c s).si = s.si := by
  unfold raiseHostError; split <;> rfl
@[simp] theorem raiseHostError_sclk (c : ErrCause) (s : State) : (raiseHostError c s).sclk = s.sclk := by
  unfold raiseHostError; split <;> rfl
@[simp] theorem raiseHostError_initd (c : ErrCause) (s : State) : (raiseHostError c s).initd = s.initd := by
  unfold raiseHostError; split <;> rfl
@[simp] theorem raiseHostError_fvalid (c : ErrCause) (s : State) : (raiseHostError c s).fvalid = s.fvalid := by
  unfold raiseHostError; split <;> rfl
@[simp] theorem raiseHostError_fnoinit (c : ErrCause) (s : State) : (raiseHostError c s).fnoinit = s.fnoinit := by
  unfold raiseHostError; split <;> rfl
@[simp] theorem raiseHostError_freq (c : ErrCause) (s : State) : (raiseHostError c s).freq = s.freq := by
  unfold raiseHostError; split <;> rfl
@[simp] theorem raiseHostError_risecnt (c : ErrCause) (s : State) : (raiseHostError c s).risecnt = s.risecnt := by
  unfold raiseHostError; split <;> rfl
@[simp] theorem raiseHostError_sampcnt (c : ErrCause) (s : State) : (raiseHostError c s).sampcnt = s.sampcnt := by
  unfold raiseHostError; split <;> rfl
@[simp] theorem raiseHostError_frame (c : ErrCause) (s : State) : (raiseHostError c s).frame = s.frame := by
  unfold raiseHostError; split <;> rfl
@[simp] theorem raiseHostError_hRdata (c : ErrCause) (s : State) : (raiseHostError c s).hRdata = s.hRdata := by
  unfold raiseHostError; split <;> rfl
@[simp] theorem raiseHostError_par (c : ErrCause) (s : State) : (raiseHostError c s).par = s.par := by
  unfold raiseHostError; split <;> rfl
@[simp] theorem raiseHostError_stim (c : ErrCause) (s : State) : (raiseHostError c s).stim = s.stim := by
  unfold raiseHostError; split <;> rfl
@[simp] theorem raiseHostError_cycle (c : ErrCause) (s : State) : (raiseHostError c s).cycle = s.cycle := by
  unfold raiseHostError; split <;> rfl

@[simp] theorem raiseHostError_err (c : ErrCause) (s : State) : (raiseHostError c s).err = true := by
  unfold raiseHostError; split <;> simp_all

@[simp] theorem raiseHostError_errovf (c : ErrCause) (s : State) :
    (raiseHostError c s).errovf = (s.errovf || s.err) := by
  unfold raiseHostError; split <;> simp_all

@[simp] theorem raiseHostError_errcause (c : ErrCause) (s : State) :
    (raiseHostError c s).errcause = if s.err = true then s.errcause else c := by
  unfold raiseHostError; split <;> simp_all

/-! ## load: the elements it never writes -/

@[simp] theorem load_op (p : List Segment) (k : Nat) (s : State) : (load p k s).op = s.op := by
  unfold load; split <;> rfl
@[simp] theorem load_initd (p : List Segment) (k : Nat) (s : State) : (load p k s).initd = s.initd := by
  unfold load; split <;> rfl
@[simp] theorem load_fvalid (p : List Segment) (k : Nat) (s : State) : (load p k s).fvalid = s.fvalid := by
  unfold load; split <;> rfl
@[simp] theorem load_fnoinit (p : List Segment) (k : Nat) (s : State) : (load p k s).fnoinit = s.fnoinit := by
  unfold load; split <;> rfl
@[simp] theorem load_err (p : List Segment) (k : Nat) (s : State) : (load p k s).err = s.err := by
  unfold load; split <;> rfl
@[simp] theorem load_errovf (p : List Segment) (k : Nat) (s : State) : (load p k s).errovf = s.errovf := by
  unfold load; split <;> rfl
@[simp] theorem load_errcause (p : List Segment) (k : Nat) (s : State) : (load p k s).errcause = s.errcause := by
  unfold load; split <;> rfl
@[simp] theorem load_freq (p : List Segment) (k : Nat) (s : State) : (load p k s).freq = s.freq := by
  unfold load; split <;> rfl
@[simp] theorem load_sampcnt (p : List Segment) (k : Nat) (s : State) : (load p k s).sampcnt = s.sampcnt := by
  unfold load; split <;> rfl
@[simp] theorem load_frame (p : List Segment) (k : Nat) (s : State) : (load p k s).frame = s.frame := by
  unfold load; split <;> rfl
@[simp] theorem load_hRdata (p : List Segment) (k : Nat) (s : State) : (load p k s).hRdata = s.hRdata := by
  unfold load; split <;> rfl
@[simp] theorem load_par (p : List Segment) (k : Nat) (s : State) : (load p k s).par = s.par := by
  unfold load; split <;> rfl
@[simp] theorem load_stim (p : List Segment) (k : Nat) (s : State) : (load p k s).stim = s.stim := by
  unfold load; split <;> rfl
@[simp] theorem load_cycle (p : List Segment) (k : Nat) (s : State) : (load p k s).cycle = s.cycle := by
  unfold load; split <;> rfl

/-! ## advance: the elements it never writes -/

@[simp] theorem advance_fnoinit (s : State) : (advance s).fnoinit = s.fnoinit := by
  unfold advance; split <;> simp
@[simp] theorem advance_err (s : State) : (advance s).err = s.err := by
  unfold advance; split <;> simp
@[simp] theorem advance_errovf (s : State) : (advance s).errovf = s.errovf := by
  unfold advance; split <;> simp
@[simp] theorem advance_errcause (s : State) : (advance s).errcause = s.errcause := by
  unfold advance; split <;> simp
@[simp] theorem advance_freq (s : State) : (advance s).freq = s.freq := by
  unfold advance; split <;> simp
@[simp] theorem advance_sampcnt (s : State) : (advance s).sampcnt = s.sampcnt := by
  unfold advance; split <;> simp
@[simp] theorem advance_frame (s : State) : (advance s).frame = s.frame := by
  unfold advance; split <;> simp
@[simp] theorem advance_hRdata (s : State) : (advance s).hRdata = s.hRdata := by
  unfold advance; split <;> simp
@[simp] theorem advance_par (s : State) : (advance s).par = s.par := by
  unfold advance; split <;> simp
@[simp] theorem advance_stim (s : State) : (advance s).stim = s.stim := by
  unfold advance; split <;> simp
@[simp] theorem advance_cycle (s : State) : (advance s).cycle = s.cycle := by
  unfold advance; split <;> simp

/-! ## resetCycle -/

@[simp] theorem resetCycle_par (s : State) : (resetCycle s).par = s.par := rfl

@[simp] theorem resetCycle_stim (s : State) : (resetCycle s).stim = s.stim := rfl

@[simp] theorem resetCycle_cycle (s : State) : (resetCycle s).cycle = s.cycle := rfl

end Sys2Proof.Machine
end

