-- ==== Sys2Proof/Laws/Waveform.lean ====
section
/-!
SUPPORT. Small facts about the waveform programs: lengths, and where the segments of repeated pulses lie.
-/

namespace Sys2Proof.Machine

@[simp] theorem startPulse_length : startPulse.length = 2 := rfl

@[simp] theorem pulse_length : pulse.length = 2 := rfl

@[simp] theorem sampledPulse_length (i : Pixel) : (sampledPulse i).length = 3 := rfl

@[simp] theorem pulses_length (n : Nat) : (pulses n).length = 2 * n := by
  induction n with
  | zero => rfl
  | succ n ih => simp [pulses, ih]; omega

@[simp] theorem sampledPulses_length (n : Nat) : ∀ i, (sampledPulses i n).length = 3 * n := by
  induction n with
  | zero => intro i; rfl
  | succ n ih => intro i; simp [sampledPulses, ih]; omega

/-- The segments of `PULSE^n` alternate low and high (R92). -/
theorem pulses_getElem? (n : Nat) : ∀ k, (pulses n)[k]? =
    if k < 2 * n then some (.hold false (decide (k % 2 = 1)) .half) else none := by
  induction n with
  | zero => intro k; simp [pulses]
  | succ n ih =>
    intro k
    match k with
    | 0 => simp [pulses, pulse]
    | 1 => simp [pulses, pulse]; omega
    | k + 2 => simp [pulses, pulse, ih]; split <;> split <;> simp_all <;> omega

/-- The segments of `SPULSE(i) ++ ... ++ SPULSE(i+n-1)`: low, high, sample (R93). -/
theorem sampledPulses_getElem? (n : Nat) : ∀ i k, (sampledPulses i n)[k]? =
    if k < 3 * n then
      (if k % 3 = 2 then some (.sample (Fin.ofNat 128 (i + k / 3))) else some (.hold false (decide (k % 3 = 1)) .half))
    else none := by
  induction n with
  | zero => intro i k; simp [sampledPulses]
  | succ n ih =>
    intro i k
    match k with
    | 0 => simp [sampledPulses, sampledPulse, pulse]
    | 1 => simp [sampledPulses, sampledPulse, pulse]; omega
    | 2 => simp [sampledPulses, sampledPulse, pulse]; omega
    | k + 3 =>
      have h1 : (k + 3) % 3 = k % 3 := by omega
      have h2 : i + (k + 3) / 3 = i + 1 + k / 3 := by omega
      have h3 : k + 3 < 3 * (n + 1) ↔ k < 3 * n := by omega
      simp only [sampledPulses, sampledPulse, pulse, List.cons_append, List.nil_append, List.getElem?_cons_succ, ih,
        h1, h2, h3]

@[simp] theorem prog_none : prog .none = [] := rfl

/-- INIT has 268 segments (R106). -/
@[simp] theorem prog_init_length : (prog .init).length = 268 := by
  simp [prog, progInit, Config.nSeq]

/-- CAPTURE has 665 segments (R107). -/
@[simp] theorem prog_capture_length : (prog .capture).length = 665 := by
  simp [prog, progCapture, primePass, capturePass, Config.nDummy, Config.nPix, Config.nReset]

/-- Every program fits SEG (R28). -/
theorem prog_length_lt (op : Op) : (prog op).length < 1024 := by
  cases op <;> simp

end Sys2Proof.Machine
end

