-- ==== Sys2Proof/Laws/Ops.lean ====
section
/-!
SUPPORT. What each shared operation can do, said once: recording an error, a CMD command, loading and advancing, the
sequencer's part, a meaning. Later proofs cite these and do not unfold the operations.
-/

namespace Sys2Proof.Machine

/-- R134 as one equation. -/
theorem raiseHostError_eq (c : ErrCause) (s : State) :
    raiseHostError c s = { s with
      err := true, errovf := s.errovf || s.err, errcause := if s.err = true then s.errcause else c } := by
  unfold raiseHostError; cases h : s.err <;> cases s <;> simp_all

theorem command_busy {op : Op} {s : State} (h : s.op ≠ .none) : command op s = raiseHostError .cmdBusy s := by
  simp [command, h]

theorem command_idle {op : Op} {s : State} (h : s.op = .none) : command op s = accept op s := by
  simp [command, h]

/-- Loading a hold segment (R94). -/
theorem load_hold {p : List Segment} {k : Nat} {s : State} {si ck : Bool} {d : HoldTime}
    (h : p[k]? = some (.hold si ck d)) :
    load p k s = { s with
      seg := BitVec.ofNat 10 k, si := si, sclk := ck, tcnt := BitVec.ofNat 32 (dur s.par d s.freq.toNat - 1),
      risecnt := if s.sclk = false ∧ ck = true then s.risecnt + 1 else s.risecnt } := by
  simp [load, h]

/-- Loading a sample segment (R94). -/
theorem load_sample {p : List Segment} {k : Nat} {s : State} {i : Pixel} (h : p[k]? = some (.sample i)) :
    load p k s = { s with seg := BitVec.ofNat 10 k, sph := .req } := by
  simp [load, h]

/-- Ending the last segment (R98). -/
theorem advance_last {s : State} (h : s.seg.toNat + 1 = (prog s.op).length) : advance s = finish s := by
  simp [advance, h]

/-- Ending any other segment (R98). -/
theorem advance_more {s : State} (h : s.seg.toNat + 1 ≠ (prog s.op).length) :
    advance s = load (prog s.op) (s.seg.toNat + 1) s := by
  simp [advance, h]

/-- Where a current segment exists, a sequence runs and SEG is an index of its program (R28). -/
theorem currentSegment_lt {s : State} {g : Segment} (h : currentSegment s = some g) :
    s.op ≠ .none ∧ s.seg.toNat < (prog s.op).length := by
  unfold currentSegment at h
  have hlt := (List.getElem?_eq_some_iff.mp h).1
  refine ⟨fun h0 => ?_, hlt⟩
  simp [h0] at hlt

/-- Everything `advance` can do where a segment is current: end the sequence, or load a hold or a sample. -/
theorem advance_cases {s : State} {g : Segment} (h : currentSegment s = some g) :
    (s.seg.toNat + 1 = (prog s.op).length ∧ advance s = finish s) ∨
    (∃ si ck d, (prog s.op)[s.seg.toNat + 1]? = some (.hold si ck d) ∧
      advance s = { s with
        seg := BitVec.ofNat 10 (s.seg.toNat + 1), si := si, sclk := ck,
        tcnt := BitVec.ofNat 32 (dur s.par d s.freq.toNat - 1),
        risecnt := if s.sclk = false ∧ ck = true then s.risecnt + 1 else s.risecnt }) ∨
    (∃ i, (prog s.op)[s.seg.toNat + 1]? = some (.sample i) ∧
      advance s = { s with seg := BitVec.ofNat 10 (s.seg.toNat + 1), sph := .req }) := by
  have hlt := (currentSegment_lt h).2
  by_cases hl : s.seg.toNat + 1 = (prog s.op).length
  · exact .inl ⟨hl, advance_last hl⟩
  · right
    rw [advance_more hl]
    have hget : s.seg.toNat + 1 < (prog s.op).length := by omega
    rcases hg : (prog s.op)[s.seg.toNat + 1] with ⟨si, ck, d⟩ | ⟨i⟩
    · have h' : (prog s.op)[s.seg.toNat + 1]? = some (.hold si ck d) := by simp [hget, hg]
      exact .inl ⟨si, ck, d, h', load_hold h'⟩
    · have h' : (prog s.op)[s.seg.toNat + 1]? = some (.sample i) := by simp [hget, hg]
      exact .inr ⟨i, h', load_sample h'⟩

/-- Everything the sequencer's part of a cycle can do (R95, R96). -/
theorem sequencer_cases {done : Bool} {data : Word} {s t : State} (h : sequencer done data s = .next t) :
    (∃ si ck d, currentSegment s = some (.hold si ck d) ∧ 0 < s.tcnt.toNat ∧ t = { s with tcnt := s.tcnt - 1 }) ∨
    (∃ si ck d, currentSegment s = some (.hold si ck d) ∧ s.tcnt.toNat = 0 ∧ t = advance s) ∨
    (∃ i, currentSegment s = some (.sample i) ∧ s.sph = .req ∧ t = { s with sph := .wait }) ∨
    (∃ i, currentSegment s = some (.sample i) ∧ s.sph = .wait ∧ done = true ∧ t = advance (storeSample i data s)) ∨
    (∃ i, currentSegment s = some (.sample i) ∧ s.sph = .wait ∧ done = false ∧ t = s) := by
  unfold sequencer at h
  split at h
  · next si ck d hc =>
    injection h with h
    unfold holdStep at h
    split at h
    · exact .inl ⟨si, ck, d, hc, ‹_›, h.symm⟩
    · exact .inr (.inl ⟨si, ck, d, hc, by omega, h.symm⟩)
  · next i hc =>
    injection h with h
    unfold sampleStep at h
    split at h
    · next hs => exact .inr (.inr (.inl ⟨i, hc, hs, h.symm⟩))
    · next hs =>
      split at h
      · next hd => exact .inr (.inr (.inr (.inl ⟨i, hc, hs, hd, h.symm⟩)))
      · next hd => exact .inr (.inr (.inr (.inr ⟨i, hc, hs, by simpa using hd, h.symm⟩)))
  · cases h

/-- The sequencer's part completes where a segment is current. -/
theorem sequencer_total {done : Bool} {data : Word} {s : State} {g : Segment} (h : currentSegment s = some g) :
    ∃ t, sequencer done data s = .next t := by
  unfold sequencer
  cases g <;> simp [h]

/-- Everything a meaning can do: nothing, a command, a cleared or recorded error, a new frequency, or read data. -/
theorem exec_cases (i : Instr) (s : State) :
    ∃ t, exec i s = .next t ∧
      (t = s ∨ (∃ op, (i = .init ∧ op = .init ∨ i = .capture ∧ op = .capture) ∧ t = command op s) ∨
        (i = .clrerr ∧ t = clearErrors s) ∨
        (∃ d, i = .setclk d ∧ t = writeFreq d s) ∨ (∃ c, c ≠ .none ∧ t = raiseHostError c s) ∨
        (∃ v, i.txn.we = false ∧ t = driveRdata v s)) := by
  cases i
  case nop => exact ⟨_, rfl, .inl rfl⟩
  case init => exact ⟨_, rfl, .inr (.inl ⟨.init, .inl ⟨rfl, rfl⟩, rfl⟩)⟩
  case capture => exact ⟨_, rfl, .inr (.inl ⟨.capture, .inr ⟨rfl, rfl⟩, rfl⟩)⟩
  case clrerr => exact ⟨_, rfl, .inr (.inr (.inl ⟨rfl, rfl⟩))⟩
  case setclk d => exact ⟨_, rfl, .inr (.inr (.inr (.inl ⟨d, rfl, rfl⟩)))⟩
  case illCmd d => exact ⟨_, rfl, .inr (.inr (.inr (.inr (.inl ⟨.rsvdCmd, by simp, rfl⟩))))⟩
  case illWr wa d =>
    exact ⟨_, rfl, .inr (.inr (.inr (.inr (.inl ⟨wrCause wa, by unfold wrCause; split <;> simp, rfl⟩))))⟩
  all_goals exact ⟨_, rfl, .inr (.inr (.inr (.inr (.inr ⟨_, rfl, rfl⟩))))⟩

end Sys2Proof.Machine
end

