-- ==== Sys2Proof/Laws/PerInstr.lean ====
section
/-!
SUPPORT. One fact about every instruction as syntax, per constructor: the canonical word of a well-formed instruction carries
the pattern of the opcode-map row that bears the instruction's mnemonic (R77).
-/

namespace Sys2Proof.Laws

open Sys2Proof

/-- The canonical word is its three fields side by side (R73). -/
theorem txnWord_append (we : Bool) (wa : WordAddr) (d : Word) :
    txnWord we wa d = (BitVec.ofBool we ++ wa) ++ d := by
  apply BitVec.eq_of_toNat_eq
  rw [txnWord_toNat, BitVec.toNat_append, BitVec.toNat_append, ← Nat.shiftLeft_add_eq_or_of_lt d.isLt,
    ← Nat.shiftLeft_add_eq_or_of_lt wa.isLt, Nat.shiftLeft_eq, Nat.shiftLeft_eq]
  cases we
  · simp
  · simp; omega

/-- Under the mask of `we` and `wa` a word is its `we` and `wa`. -/
theorem txnWord_and_addr (we : Bool) (wa : WordAddr) (data : Word) :
    txnWord we wa data &&& 0x1FF00000000#41 = txnWord we wa 0 := by
  have h : (0x1FF00000000#41) = (BitVec.allOnes 9) ++ (0#32) := by decide
  rw [txnWord_append, txnWord_append, h]
  ext k hk
  rw [BitVec.getElem_and, BitVec.getElem_append, BitVec.getElem_append, BitVec.getElem_append]
  by_cases hk' : k < 32
  · simp only [hk', dite_true]; simp
  · simp only [hk', dite_false, BitVec.getElem_allOnes, Bool.and_true]

/-- Under the mask of `we` alone a word is its `we`. -/
theorem txnWord_and_we (we : Bool) (wa : WordAddr) (data : Word) :
    txnWord we wa data &&& 0x10000000000#41 = txnWord we 0 0 := by
  have h1 : (0x10000000000#41) = 0x1FF00000000#41 &&& 0x10000000000#41 := by decide
  rw [h1, ← BitVec.and_assoc, txnWord_and_addr]
  revert we wa
  decide +kernel

/-- A row that fixes `we` and `wa` is hit by every word with them. -/
theorem hits_addr {r : OpcodeRow} {we : Bool} {wa : WordAddr} (d : Word) (hm : r.mask = 0x1FF00000000#41)
    (hp : r.pattern = txnWord we wa 0) : r.hits (txnWord we wa d) = true := by
  simp [OpcodeRow.hits, hm, hp, txnWord_and_addr]

/-- A row that fixes `we` alone is hit by every word with it. -/
theorem hits_we {r : OpcodeRow} {we : Bool} (wa : WordAddr) (d : Word) (hm : r.mask = 0x10000000000#41)
    (hp : r.pattern = txnWord we 0 0) : r.hits (txnWord we wa d) = true := by
  simp [OpcodeRow.hits, hm, hp, txnWord_and_we]

namespace EncodesRow

/-- The family: what it says of one instruction. -/
def Statement (i : Instr) : Prop :=
  i.wf = true → ∃ r ∈ opcodeRows, r.mnemonic = i.mnemonic ∧ r.hits (encode i) = true

theorem nop : Statement .nop := by unfold Statement; decide

theorem init : Statement .init := by unfold Statement; decide

theorem capture : Statement .capture := by unfold Statement; decide

theorem clrerr : Statement .clrerr := by unfold Statement; decide

theorem setclk (data : Word) : Statement (.setclk data) := fun _ =>
  ⟨⟨"SETCLK", 0x1FF00000000, 0x10100000000, 0⟩, by decide, rfl, hits_addr (we := true) (wa := 0x01) data rfl (by decide)⟩

theorem rdCmd : Statement .rdCmd := by unfold Statement; decide

theorem rdFreq : Statement .rdFreq := by unfold Statement; decide

theorem rdHalfcyc : Statement .rdHalfcyc := by unfold Statement; decide

theorem rdSettlecyc : Statement .rdSettlecyc := by unfold Statement; decide

theorem rdStatus : Statement .rdStatus := by unfold Statement; decide

theorem rdErrcause : Statement .rdErrcause := by unfold Statement; decide

theorem rdPos : Statement .rdPos := by unfold Statement; decide

theorem rdRisecnt : Statement .rdRisecnt := by unfold Statement; decide

theorem rdSampcnt : Statement .rdSampcnt := by unfold Statement; decide

theorem rdFrame (i : Pixel) : Statement (.rdFrame i) := fun _ =>
  ⟨⟨"RD_FRAME", 0x18000000000, 0x08000000000, 0⟩, by decide, rfl, by revert i; decide +kernel⟩

theorem rdRsvd (wa : WordAddr) : Statement (.rdRsvd wa) := fun _ =>
  ⟨⟨"RD_RSVD", 0x10000000000, 0x00000000000, 1⟩, by decide, rfl, hits_we (we := false) wa 0 rfl (by decide)⟩

theorem illCmd (data : Word) : Statement (.illCmd data) := fun _ =>
  ⟨⟨"ILL_CMD", 0x1FF00000000, 0x10000000000, 1⟩, by decide, rfl, hits_addr (we := true) (wa := 0x00) data rfl (by decide)⟩

theorem illWr (wa : WordAddr) (data : Word) : Statement (.illWr wa data) := fun _ =>
  ⟨⟨"ILL_WR", 0x10000000000, 0x10000000000, 2⟩, by decide, rfl, hits_we (we := true) wa data rfl (by decide)⟩

end EncodesRow

end Sys2Proof.Laws
end

