-- ==== Sys2Proof/Laws/Step.lean ====
section
/-!
SUPPORT. What one cycle can do, said once: a reset, or a host part followed by a sequencer part.
-/

namespace Sys2Proof.Machine

/-- `andThen` answers a next state just where both parts do. -/
theorem andThen_next {o : Host.Outcome State Fault Refusal} {k : State → Host.Outcome State Fault Refusal} {t : State} :
    andThen o k = .next t ↔ ∃ a, o = .next a ∧ k a = .next t := by
  cases o <;> simp [andThen]

@[simp] theorem andThen_of_next (a : State) (k : State → Host.Outcome State Fault Refusal) :
    andThen (.next a) k = k a := rfl

theorem busy_iff (s : State) : busy s = true ↔ s.op ≠ .none := by simp [busy]

theorem nextInput_withInput (s : State) (inp : CycleInput) : nextInput (withInput s inp) = inp := rfl

/-- A cycle with `rst = 1`. -/
theorem runCycle_reset {inp : CycleInput} {s : State} (h : inp.rst = true) :
    runCycle inp s = .next (elapse (resetCycle s)) := by
  simp [runCycle, h]

/-- A cycle with `rst = 0`. -/
theorem runCycle_work {inp : CycleInput} {s : State} (h : inp.rst = false) :
    runCycle inp s = andThen (hostPart inp.host s) fun s1 =>
      andThen (sequencerPart (busy s) inp s1) fun s2 => .next (elapse s2) := by
  simp [runCycle, h]

/-- Everything a cycle that completes can be. -/
theorem runCycle_cases {inp : CycleInput} {s t : State} (h : runCycle inp s = .next t) :
    (inp.rst = true ∧ t = elapse (resetCycle s)) ∨
    (inp.rst = false ∧ ∃ a b, hostPart inp.host s = .next a ∧ sequencerPart (busy s) inp a = .next b ∧ t = elapse b) := by
  cases hr : inp.rst
  · right
    rw [runCycle_work hr, andThen_next] at h
    obtain ⟨a, ha, h⟩ := h
    rw [andThen_next] at h
    obtain ⟨b, hb, h⟩ := h
    injection h with h
    exact ⟨rfl, a, b, ha, hb, h.symm⟩
  · left
    rw [runCycle_reset hr] at h
    injection h with h
    exact ⟨rfl, h.symm⟩

/-- Everything the host's part that completes can be: no transaction, or one that is executed. -/
theorem hostPart_cases {h : HostLane} {s a : State} (he : hostPart h s = .next a) :
    (presented h = .next none ∧ a = driveRdata 0 s) ∨
    (∃ t, presented h = .next (some t) ∧ exec (decode t.word) (driveRdata 0 s) = .next a) := by
  unfold hostPart at he
  split at he
  · next hp => injection he with he; exact .inl ⟨hp, he.symm⟩
  · next t hp => exact .inr ⟨t, hp, he⟩
  · cases he
  · cases he

/-- The host's part completes wherever the host lane amounts to a transaction or to none. -/
theorem hostPart_total {h : HostLane} {s : State} {o : Option Txn} (hp : presented h = .next o) :
    ∃ a, hostPart h s = .next a := by
  unfold hostPart
  cases o with
  | none => simp [hp]
  | some t =>
    obtain ⟨a, ha, -⟩ := exec_cases (decode t.word) (driveRdata 0 s)
    exact ⟨a, by simpa [hp] using ha⟩

theorem sequencerPart_idle {inp : CycleInput} {s : State} : sequencerPart false inp s = .next s := rfl

theorem sequencerPart_busy {inp : CycleInput} {s : State} :
    sequencerPart true inp s = sequencer inp.adcDone inp.adcData s := rfl

end Sys2Proof.Machine
end

