-- ==== Sys2Proof/Laws/Run.lean ====
section
/-!
SUPPORT. Runs of several cycles, what a calm cycle does to a running sequence (it is the sequencer's part, up to the error
elements and the read data), and that every operation that writes FRAME keeps its entries within ADC_W bits.
-/

namespace Sys2Proof.Machine

/-! ## Runs -/

theorem run_zero (s : State) : run 0 s = .next s := rfl

theorem run_succ (n : Nat) (s : State) : run (n + 1) s = andThen (step s) (run n) := by
  cases h : step s with
  | next t =>
    have h' : Sys2Proof.core.step s = .next t := h
    simp only [run, Host.Core.run, h', andThen]; rfl
  | fault r =>
    have h' : Sys2Proof.core.step s = .fault r := h
    simp only [run, Host.Core.run, h', andThen]; rfl
  | refused r =>
    have h' : Sys2Proof.core.step s = .refused r := h
    simp only [run, Host.Core.run, h', andThen]; rfl

theorem run_add (m n : Nat) : ∀ s : State, run (m + n) s = andThen (run m s) (run n) := by
  induction m with
  | zero => intro s; simp [run_zero]
  | succ m ih =>
    intro s
    rw [show m + 1 + n = (m + n) + 1 by omega, run_succ, run_succ]
    cases step s <;> simp [andThen, ih]

/-! ## Traces -/

@[simp] theorem trace_zero (s : State) : trace 0 s = [] := rfl

theorem trace_succ {n : Nat} {s t : State} (h : step s = .next t) : trace (n + 1) s = outputs s :: trace n t := by
  simp [trace, h]

@[simp] theorem lasts_zero (op : Op) (s : State) : lasts op 0 s = true ↔ s.op = .none := by simp [lasts]

/-- A sequence that lasts one more cycle runs in this one, which completes, and lasts from its next state on. -/
theorem lasts_succ {op : Op} {n : Nat} {s : State} :
    lasts op (n + 1) s = true ↔ s.op = op ∧ ∃ t, step s = .next t ∧ lasts op n t = true := by
  rcases h : step s with t | r | r <;> simp [lasts, h]

/-! ## Calm cycles -/

/-- A word decodes to SETCLK only as a write to FREQ (R77). -/
theorem decode_eq_setclk {t : TxnWord} {d : Word} (h : decode t = .setclk d) : t.we = true ∧ t.wa = 1 := by
  unfold decode at h
  split at h
  · next hwe =>
    refine ⟨hwe, ?_⟩
    unfold decodeWrite at h
    split at h
    · unfold decodeCmd at h
      repeat' (split at h <;> try (simp at h; done))
    · split at h
      · assumption
      · simp at h
  · unfold decodeRead at h
    repeat' (split at h <;> try (simp at h; done))

/-- `advance` does not touch what the host's part writes during a sequence, apart from reading FREQ. -/
theorem advance_host_elements (s : State) (e ov : Bool) (c : ErrCause) (v : Word) :
    advance { s with err := e, errovf := ov, errcause := c, hRdata := v } =
      { advance s with err := e, errovf := ov, errcause := c, hRdata := v } := by
  unfold advance
  simp only []
  split
  · rfl
  · unfold load
    split <;> rfl

/-- The sequencer's part goes the same way whatever the error elements and the read data hold, and leaves them. -/
theorem sequencer_host_elements (done : Bool) (data : Word) (s : State) (e ov : Bool) (c : ErrCause) (v : Word) :
    sequencer done data { s with err := e, errovf := ov, errcause := c, hRdata := v } =
      andThen (sequencer done data s) fun t => .next { t with err := e, errovf := ov, errcause := c, hRdata := v } := by
  have hcs : currentSegment { s with err := e, errovf := ov, errcause := c, hRdata := v } = currentSegment s := rfl
  unfold sequencer
  rw [hcs]
  rcases currentSegment s with _ | (⟨a, b, d⟩ | i)
  · rfl
  · simp only [holdStep, andThen_of_next]
    split
    · rfl
    · rw [advance_host_elements]
  · simp only [sampleStep, andThen_of_next]
    split
    · rfl
    · split
      · exact congrArg _ (advance_host_elements (storeSample i data s) e ov c v)
      · rfl

/-- The host's part of a calm cycle during a sequence changes the error elements and the read data alone (R104). -/
theorem hostPart_calm {inp : CycleInput} {s : State} (ho : s.op ≠ .none) (hc : calm inp = true) :
    ∃ e ov c v, hostPart inp.host s = .next { s with err := e, errovf := ov, errcause := c, hRdata := v } := by
  unfold calm at hc
  rw [Bool.and_eq_true] at hc
  obtain ⟨-, hc⟩ := hc
  unfold hostPart
  rcases hp : presented inp.host with (_ | t) | r | r
  · exact ⟨_, _, _, 0, rfl⟩
  · simp only [hp] at hc
    obtain ⟨a, ha, hcc⟩ := exec_cases (decode t.word) (driveRdata 0 s)
    simp only [ha]
    rcases hcc with rfl | ⟨op, -, rfl⟩ | ⟨-, rfl⟩ | ⟨d, hd, rfl⟩ | ⟨c, -, rfl⟩ | ⟨v, -, rfl⟩
    · exact ⟨_, _, _, _, rfl⟩
    · rw [command_busy (by simpa using ho), raiseHostError_eq]; exact ⟨_, _, _, _, rfl⟩
    · exact ⟨_, _, _, _, rfl⟩
    · have := decode_eq_setclk hd
      simp_all
    · rw [raiseHostError_eq]; exact ⟨_, _, _, _, rfl⟩
    · exact ⟨_, _, _, _, rfl⟩
  · simp [hp] at hc
  · simp [hp] at hc

/-- The sequencer's part uses up no input. -/
theorem sequencer_stim {done : Bool} {data : Word} {s t : State} (h : sequencer done data s = .next t) :
    t.stim = s.stim := by
  rcases sequencer_cases h with ⟨_, _, _, _, _, rfl⟩ | ⟨_, _, _, _, _, rfl⟩ | ⟨_, _, _, rfl⟩ | ⟨_, _, _, _, rfl⟩ |
    ⟨_, _, _, _, rfl⟩ <;> simp

/-- A calm cycle of a running sequence: the sequencer's part, up to the error elements and the read data. -/
theorem step_calm {inp : CycleInput} {rest : List CycleInput} {s u : State} (ho : s.op ≠ .none)
    (hs : s.stim = inp :: rest) (hc : calm inp = true) (hu : sequencer inp.adcDone inp.adcData s = .next u) :
    ∃ e ov c v, step s = .next { u with
      err := e, errovf := ov, errcause := c, hRdata := v, stim := rest, cycle := u.cycle + 1 } := by
  have hr : inp.rst = false := by unfold calm at hc; simp at hc; exact hc.1
  obtain ⟨e, ov, c, v, hh⟩ := hostPart_calm ho hc
  have hn : nextInput s = inp := by simp [nextInput, hs]
  have hb : busy s = true := by simp [busy, ho]
  have hst := sequencer_stim hu
  refine ⟨e, ov, c, v, ?_⟩
  rw [step, hn, runCycle_work hr, hh]
  simp only [andThen_of_next, hb, sequencerPart, if_true]
  rw [sequencer_host_elements, hu]
  simp [elapse, hst, hs]

/-! ## The form of FRAME -/

theorem lowBits_lt (w : Nat) (v : Word) : (lowBits w v).toNat < 2 ^ w := by
  have h : v.toNat % 2 ^ w < 2 ^ w := Nat.mod_lt _ (Nat.two_pow_pos w)
  have h2 : (lowBits w v).toNat ≤ v.toNat % 2 ^ w := by
    simp only [lowBits, BitVec.toNat_ofNat]
    exact Nat.mod_le _ _
  omega

/-- A sample is read back from the entry it was stored in. -/
theorem storeSample_same (i : Pixel) (v : Word) (s : State) :
    (storeSample i v s).frame[i] = some (lowBits s.par.adcW v) := by
  simp [storeSample]

/-- Storing a sample leaves every other entry alone. -/
theorem storeSample_other {i j : Pixel} (h : j ≠ i) (v : Word) (s : State) :
    (storeSample i v s).frame[j] = s.frame[j] := by
  have h' : i.val ≠ j.val := fun e => h (Fin.ext e.symm)
  simp [storeSample, Vector.getElem_set_ne _ _ h']

theorem frameFits_storeSample {s : State} (h : frameFits s) (i : Pixel) (v : Word) :
    frameFits (storeSample i v s) := by
  intro j w hw
  by_cases hj : j = i
  · subst hj
    rw [storeSample_same] at hw
    injection hw with hw
    subst hw
    exact lowBits_lt _ _
  · rw [storeSample_other hj] at hw
    exact h j w hw

theorem frameFits_resetOf (p : Config.Params) : frameFits (State.resetOf p) := by
  intro j w hw
  simp [State.resetOf] at hw

end Sys2Proof.Machine
end

