-- ==== Sys2Proof/Machine/Script.lean ====
section
/-!
DEFINITION. The host script notation of 30_encoding.md R82 and its pseudo-instructions (R83): the statements, reading them from
text, and a host that presents them to the block, one cycle at a time, WAITIDLE included. The host is no part of the block's
state. What the model fixes about the text where R82 is silent: log entries 17, 18 and 19.
-/

namespace Sys2Proof.Machine

/-! ## Statements -/

/-- `<reg>` of R82. -/
inductive ScriptReg where
  | cmd
  | freq
  | halfcyc
  | settlecyc
  | status
  | errcause
  | pos
  | risecnt
  | sampcnt
  | frame (i : Pixel)
  /-- `@<wa>`. -/
  | raw (wa : WordAddr)
  deriving DecidableEq, Repr

/-- The word address of a register (R41). -/
def regAddr : ScriptReg → WordAddr
  | .cmd => 0x00
  | .freq => 0x01
  | .halfcyc => 0x02
  | .settlecyc => 0x03
  | .status => 0x04
  | .errcause => 0x05
  | .pos => 0x06
  | .risecnt => 0x07
  | .sampcnt => 0x08
  | .frame i => BitVec.ofNat 8 (0x80 + i.val)
  | .raw wa => wa

/-- A statement of a host script (R82, R83). -/
inductive Stmt where
  /-- `WR <reg>, <value>`. -/
  | wr (r : ScriptReg) (v : Int)
  /-- `RD <reg>`. -/
  | rd (r : ScriptReg)
  /-- `IDLE <n>`. -/
  | idle (n : Nat)
  /-- `WAITIDLE`: a read of STATUS in each cycle until BUSY reads 0 (R83). -/
  | waitIdle
  deriving DecidableEq, Repr

/-- The pseudo-instruction NOP (R83). -/
def stmtNop : Stmt := .wr .cmd 0

/-- The pseudo-instruction INIT (R83). -/
def stmtInit : Stmt := .wr .cmd 1

/-- The pseudo-instruction CAPTURE (R83). -/
def stmtCapture : Stmt := .wr .cmd 2

/-- The pseudo-instruction CLRERR (R83). -/
def stmtClrerr : Stmt := .wr .cmd 3

/-- The pseudo-instruction SETCLK f (R83). -/
def stmtSetclk (f : Int) : Stmt := .wr .freq f

/-- The source's `initialize()` (R83). -/
def callInitialize : List Stmt := [stmtInit, .waitIdle]

/-- The source's `captureFrame(buf)` (R83). -/
def callCaptureFrame : List Stmt := stmtCapture :: .waitIdle :: (List.finRange 128).map fun i => .rd (.frame i)

/-- The source's `setClockPeriod(f)` (R83). -/
def callSetClockPeriod (f : Int) : List Stmt := [stmtSetclk f]

/-- The transaction of a read. -/
def readLane (r : ScriptReg) : HostLane := .txn ⟨false, regAddr r, 0⟩

/-- The transaction of a write; a negative value is written as its 32-bit two's complement (R82). DESIGN CHOICE: R82 does not say
what a value below -2^31 or from 2^32 on writes; the model writes it modulo 2^32. Log entry 18. -/
def writeLane (r : ScriptReg) (v : Int) : HostLane := .txn ⟨true, regAddr r, BitVec.ofInt 32 v⟩

/-! ## Statements from text (R82) -/

/-- The digit a character stands for in base 16, in either case of letters (log entry 17). -/
def scriptDigit (c : Char) : Option Nat :=
  if '0' ≤ c ∧ c ≤ '9' then some (c.toNat - '0'.toNat)
  else if 'a' ≤ c ∧ c ≤ 'f' then some (c.toNat - 'a'.toNat + 10)
  else if 'A' ≤ c ∧ c ≤ 'F' then some (c.toNat - 'A'.toNat + 10)
  else none

/-- Digits in a base, after the value `n` read so far. -/
def scriptDigits (base : Nat) (n : Nat) : List Char → Option Nat
  | [] => some n
  | c :: r =>
    match scriptDigit c with
    | some d => if d < base then scriptDigits base (n * base + d) r else none
    | none => none

/-- A number without a sign: decimal, or `0x` hexadecimal. R82 gives these two forms for `<value>`. DESIGN CHOICE: it gives no form
for `<i>`, `<wa>` and `<n>`; the model takes both there as well. Log entry 19. -/
def scriptNatural : List Char → Option Nat
  | [] => none
  | ['0', 'x'] => none
  | '0' :: 'x' :: r => scriptDigits 16 0 r
  | cs => scriptDigits 10 0 cs

/-- `<value>`: a number, with a leading `-` allowed before a decimal one (R82); its size is not limited (log entry 18). -/
def scriptValue : List Char → Option Int
  | '-' :: c :: r => (scriptDigits 10 0 (c :: r)).map fun n => -(n : Int)
  | cs => (scriptNatural cs).map Int.ofNat

/-- The index of `FRAME[<i>]`, its closing bracket included; its number in either form (log entry 19). -/
def frameSuffix (cs : List Char) : Option Pixel :=
  match cs.reverse with
  | ']' :: r =>
    match scriptNatural r.reverse with
    | some n => if h : n < 128 then some ⟨n, h⟩ else none
    | none => none
  | _ => none

/-- The registers that are written by their names alone. -/
def namedRegs : List (List Char × ScriptReg) :=
  [(['C', 'M', 'D'], .cmd), (['F', 'R', 'E', 'Q'], .freq), (['H', 'A', 'L', 'F', 'C', 'Y', 'C'], .halfcyc),
   (['S', 'E', 'T', 'T', 'L', 'E', 'C', 'Y', 'C'], .settlecyc), (['S', 'T', 'A', 'T', 'U', 'S'], .status),
   (['E', 'R', 'R', 'C', 'A', 'U', 'S', 'E'], .errcause), (['P', 'O', 'S'], .pos),
   (['R', 'I', 'S', 'E', 'C', 'N', 'T'], .risecnt), (['S', 'A', 'M', 'P', 'C', 'N', 'T'], .sampcnt)]

/-- `<reg>`; the number of `@<wa>` in either form (log entry 19), and no register where it is above 255 (log entry 17). -/
def scriptRegister : List Char → Option ScriptReg
  | '@' :: r =>
    match scriptNatural r with
    | some n => if n < 256 then some (.raw (BitVec.ofNat 8 n)) else none
    | none => none
  | 'F' :: 'R' :: 'A' :: 'M' :: 'E' :: '[' :: r => (frameSuffix r).map .frame
  | cs => namedRegs.lookup cs

/-- A character that separates words (log entry 17). -/
def scriptBlank (c : Char) : Bool := c == ' ' || c == '\t' || c == '\r'

/-- The words of a line up to its comment, the comma a word of its own; `w` is the word being read, last character first. -/
def scriptWords (w : List Char) : List Char → List (List Char)
  | [] => if w.isEmpty then [] else [w.reverse]
  | c :: r =>
    let done := if w.isEmpty then [] else [w.reverse]
    if c == ';' then done
    else if c == ',' then done ++ [','] :: scriptWords [] r
    else if scriptBlank c then done ++ scriptWords [] r
    else scriptWords (c :: w) r

/-- The statement of the words of a line (R82, R83); the number of `IDLE <n>` in either form (log entry 19). -/
def scriptStatement : List (List Char) → Option Stmt
  | [['W', 'R'], r, [','], v] =>
    match scriptRegister r, scriptValue v with
    | some r, some v => some (.wr r v)
    | _, _ => none
  | [['R', 'D'], r] => (scriptRegister r).map .rd
  | [['I', 'D', 'L', 'E'], n] => (scriptNatural n).map .idle
  | [['N', 'O', 'P']] => some stmtNop
  | [['I', 'N', 'I', 'T']] => some stmtInit
  | [['C', 'A', 'P', 'T', 'U', 'R', 'E']] => some stmtCapture
  | [['C', 'L', 'R', 'E', 'R', 'R']] => some stmtClrerr
  | [['S', 'E', 'T', 'C', 'L', 'K'], f] => (scriptValue f).map stmtSetclk
  | [['W', 'A', 'I', 'T', 'I', 'D', 'L', 'E']] => some .waitIdle
  | _ => none

/-- A line of a script: a statement, nothing where it has no words, or no line of a script (log entry 17). -/
def parseLine (line : List Char) : Option (List Stmt) :=
  match scriptWords [] line with
  | [] => some []
  | ws => (scriptStatement ws).map fun t => [t]

/-- A script: its lines, one statement each. -/
def parseScript : List (List Char) → Option (List Stmt)
  | [] => some []
  | l :: r =>
    match parseLine l, parseScript r with
    | some a, some b => some (a ++ b)
    | _, _ => none

/-! ## The host that runs a script -/

/-- A host: the statements that are left, and whether it is inside a WAITIDLE that has read STATUS at least once. -/
structure HostScript where
  todo : List Stmt
  polling : Bool
  deriving DecidableEq, Repr

/-- What the host presents in a cycle, and the host after it, where the statements `ts` are left and no poll is open. -/
def hostFresh : List Stmt → HostLane × HostScript
  | [] => (.idle, ⟨[], false⟩)
  | .wr r v :: ts => (writeLane r v, ⟨ts, false⟩)
  | .rd r :: ts => (readLane r, ⟨ts, false⟩)
  | .idle 0 :: ts => hostFresh ts
  | .idle (n + 1) :: ts => (.idle, ⟨.idle n :: ts, false⟩)
  | .waitIdle :: ts => (readLane .status, ⟨.waitIdle :: ts, true⟩)

/-- What the host presents in a cycle, and the host after it; `last` is the `h_rdata` of the cycle before. An open WAITIDLE ends
where that read of STATUS had bit 0 (BUSY) at 0. -/
def hostCycle (last : Word) (h : HostScript) : HostLane × HostScript :=
  if h.polling then
    if last.getLsbD 0 then (readLane .status, h) else hostFresh h.todo.tail
  else hostFresh h.todo

/-- One cycle of the block with that host in front of it, `rst = 0`, the ADC's inputs as they are. -/
def scriptCycle (h : HostScript) (s : State) : HostScript × Host.Outcome State Fault Refusal :=
  let out := hostCycle s.hRdata h
  (out.2, step (withInput s { nextInput s with rst := false, host := out.1 }))

/-- `n` cycles of the block with that host in front of it. -/
def runScript : Nat → HostScript → State → Host.Outcome State Fault Refusal
  | 0, _, s => .next s
  | n + 1, h, s => andThen (scriptCycle h s).2 (runScript n (scriptCycle h s).1)

end Sys2Proof.Machine
end

