-- ==== Sys2Proof/Tests/Slice0.lean ====
section
/-!
SUPPORT. The model's own tests. Expected results come from spec/95_test_vectors.md or from the rule named, never from the
model. The last part shows, for every statement with hypotheses, a state and operands that meet them.
-/

namespace Sys2Proof.Tests

open Sys2Proof Sys2Proof.Machine

/-! ## Well-formedness: one ill-formed term for each check -/

theorem test_wf_rdRsvd_low : (Instr.rdRsvd 0x08).wf = false ∧ (Instr.rdRsvd 0x09).wf = true := by decide

theorem test_wf_rdRsvd_high : (Instr.rdRsvd 0x80).wf = false ∧ (Instr.rdRsvd 0x7F).wf = true := by decide

theorem test_wf_illCmd : (Instr.illCmd 0).wf = false ∧ (Instr.illCmd 1).wf = false ∧ (Instr.illCmd 2).wf = false ∧
    (Instr.illCmd 3).wf = false ∧ (Instr.illCmd 4).wf = true ∧ (Instr.illCmd 0x10).wf = true := by decide

theorem test_wf_illWr : (Instr.illWr 0 5).wf = false ∧ (Instr.illWr 1 5).wf = false ∧ (Instr.illWr 2 5).wf = true := by
  decide

/-! ## Decoding: words written out from R77, fields `we`, `wa`, `data` in that order -/

theorem test_decode_nop : decode 0b1_00000000_00000000000000000000000000000000#41 = .nop := by decide

theorem test_decode_init : decode 0b1_00000000_00000000000000000000000000000001#41 = .init := by decide

theorem test_decode_capture : decode 0b1_00000000_00000000000000000000000000000010#41 = .capture := by decide

theorem test_decode_clrerr : decode 0b1_00000000_00000000000000000000000000000011#41 = .clrerr := by decide

/-- `SETCLK 250000` is 0x101_0003_D090 (95_test_vectors.md P4). -/
theorem test_decode_setclk : decode 0b1_00000001_00000000000000111101000010010000#41 = .setclk 250000 := by decide

theorem test_decode_rdCmd : decode 0b0_00000000_00010010001101000101011001111000#41 = .rdCmd := by decide

theorem test_decode_rdFreq : decode 0b0_00000001_00000000000000000000000000000000#41 = .rdFreq := by decide

theorem test_decode_rdHalfcyc : decode 0b0_00000010_00000000000000000000000000000000#41 = .rdHalfcyc := by decide

theorem test_decode_rdSettlecyc : decode 0b0_00000011_00000000000000000000000000000000#41 = .rdSettlecyc := by decide

theorem test_decode_rdStatus : decode 0b0_00000100_00000000000000000000000000000000#41 = .rdStatus := by decide

theorem test_decode_rdErrcause : decode 0b0_00000101_00000000000000000000000000000000#41 = .rdErrcause := by decide

theorem test_decode_rdPos : decode 0b0_00000110_00000000000000000000000000000000#41 = .rdPos := by decide

theorem test_decode_rdRisecnt : decode 0b0_00000111_00000000000000000000000000000000#41 = .rdRisecnt := by decide

theorem test_decode_rdSampcnt : decode 0b0_00001000_00000000000000000000000000000000#41 = .rdSampcnt := by decide

/-- FRAME[64] is word 0xC0 (95_test_vectors.md P5). -/
theorem test_decode_rdFrame : decode 0b0_11000000_00000000000000000000000000000000#41 = .rdFrame 64 := by decide

theorem test_decode_rdRsvd : decode 0b0_00100000_00000000000000000000000000000001#41 = .rdRsvd 0x20 := by decide

theorem test_decode_illCmd : decode 0b1_00000000_10000000000000000000000000000001#41 = .illCmd 0x80000001 := by decide

/-- `WR FRAME[5], 9` is 0x185_0000_0009 (95_test_vectors.md 2.4). -/
theorem test_decode_illWr : decode 0b1_10000101_00000000000000000000000000001001#41 = .illWr 0x85 9 := by decide

/-- A number with a bit above bit 40 is no transaction (R81). -/
theorem test_decode_too_wide : decodeNat 0x20000000000 = .error .tooWide ∧ decodeTableWord 48 0x20000000000 = none ∧
    decodeTableWord 48 0x10000000001 = some .init := by
  refine ⟨by rfl, by rfl, by decide⟩

/-- The pseudo-instruction `SETCLK -5` of a script is the word 0x101_FFFF_FFFB (R82, R83, 95_test_vectors.md S2). -/
theorem test_script_setclk : (hostFresh [stmtSetclk (-5)]).1 = .txn ⟨true, 0x01, 0xFFFFFFFB⟩ := by decide

/-- R82: a line with a raw address, a hexadecimal value and a comment. -/
theorem test_script_text : parseLine ['W', 'R', ' ', '@', '0', 'x', '2', '0', ',', ' ', '0', 'x', 'F', 'f', ' ', ';', 'x'] =
    some [.wr (.raw 0x20) 255] ∧ parseLine ['R', 'D', ' ', 'F', 'R', 'A', 'M', 'E', '[', '1', '2', '7', ']'] =
    some [.rd (.frame 127)] ∧ parseLine ['R', 'D', ' ', 'F', 'R', 'A', 'M', 'E', '[', '1', '2', '8', ']'] = none := by
  decide +kernel

/-- R83: an open WAITIDLE repeats its read while bit 0 is 1, and goes on with the next statement where it is 0. -/
theorem test_script_waitidle : (hostCycle 0x00000201 ⟨[.waitIdle, stmtCapture], true⟩).1 = .txn ⟨false, 0x04, 0⟩ ∧
    (hostCycle 0x00020102 ⟨[.waitIdle, stmtCapture], true⟩).1 = .txn ⟨true, 0x00, 2⟩ := by decide

/-! ## Small states -/

/-- The block after reset with F_SYS = 1 000 000. -/
def slow : State := State.resetOf ⟨1000000, 16, 500000⟩

/-- The block after reset with F_SYS = 16 000 000. -/
def fast : State := State.resetOf ⟨16000000, 16, 500000⟩

/-- The block in segment `k` of a sequence, with the timer at 0. -/
def inSegment (op : Op) (k : Nat) (s : State) : State := { s with op := op, seg := BitVec.ofNat 10 k, tcnt := 0 }

/-- A cycle with no transaction and no answer of the ADC. -/
def quiet : CycleInput := ⟨false, .idle, false, 0⟩

/-- A cycle that presents a write. -/
def writing (wa : WordAddr) (d : Word) : CycleInput := ⟨false, .txn ⟨true, wa, d⟩, false, 0⟩

/-- A cycle that presents a read. -/
def reading (wa : WordAddr) : CycleInput := ⟨false, .txn ⟨false, wa, 0⟩, false, 0⟩

/-- What is seen of a next state. -/
def seen {α : Type} (o : Host.Outcome State Fault Refusal) (f : State → α) : Option α :=
  match o with
  | .next s => some (f s)
  | .fault _ => none
  | .refused _ => none

/-! ## One step of each instruction -/

/-- 95_test_vectors.md 2.3: a write of 0 changes nothing in any state. -/
theorem test_nop_busy : seen (exec .nop (inSegment .init 5 slow)) (fun t => (t.seg, t.err)) = some (5, false) := by decide

/-- 95_test_vectors.md 2.7: after the cycle that writes INIT the lines are SI 1, SCLK 0. -/
theorem test_init_accepted : seen (exec .init slow) (fun t => (t.op, t.si, t.sclk, t.err)) =
    some (.init, true, false, false) := by decide

/-- 95_test_vectors.md P3: a command during a sequence is rejected with CMD_BUSY. -/
theorem test_init_busy : seen (exec .init (inSegment .init 0 slow)) (fun t => (t.seg, t.err, t.errovf, t.errcause)) =
    some (0, true, false, .cmdBusy) := by decide

/-- 95_test_vectors.md 2.3: CAPTURE before INIT clears FVALID and sets FNOINIT. -/
theorem test_capture_uninitialized : seen (exec .capture { slow with fvalid := true })
    (fun t => (t.op, t.fvalid, t.fnoinit)) = some (.capture, false, true) := by decide

/-- 95_test_vectors.md 2.3: CAPTURE when READY clears FNOINIT. -/
theorem test_capture_ready : seen (exec .capture { slow with initd := true, fnoinit := true })
    (fun t => (t.op, t.fvalid, t.fnoinit, t.initd)) = some (.capture, false, false, true) := by decide

/-- 95_test_vectors.md 2.3: CLRERR with ERR = 1. -/
theorem test_clrerr : seen (exec .clrerr { slow with err := true, errovf := true, errcause := .unmapped })
    (fun t => (t.err, t.errovf, t.errcause)) = some (false, false, .none) := by decide

/-- 95_test_vectors.md 2.1: 500001, -5 and 0x80000000 clamp; 1 and 333333 do not. -/
theorem test_setclk_values : [0x0007A121#32, 0xFFFFFFFB#32, 0x80000000#32, 0x00000001#32, 0x00051615#32, 0#32].map
    (fun d => seen (exec (.setclk d) slow) (fun t => t.freq.toNat)) =
    [some 500000, some 500000, some 500000, some 1, some 333333, some 500000] := by decide

/-- R119: the last command written cannot be read back. -/
theorem test_rdCmd : seen (exec .rdCmd (inSegment .capture 3 slow)) (·.hRdata) = some 0 := by decide

/-- R120: after `SETCLK -5` FREQ reads 0x0007A120. -/
theorem test_rdFreq : seen (andThen (exec (.setclk 0xFFFFFFFB) { slow with freq := 7 }) (exec .rdFreq)) (·.hRdata) =
    some 0x0007A120 := by decide

/-- 95_test_vectors.md 2.1, the column HALFCYC at 16 MHz for 500000, 333333, 3 and 1. -/
theorem test_rdHalfcyc : [500000, 333333, 3, 1].map (fun f : Nat =>
    seen (exec .rdHalfcyc { fast with freq := BitVec.ofNat 19 f }) (·.hRdata.toNat)) =
    [some 16, some 25, some 2666667, some 8000000] := by decide

/-- 95_test_vectors.md 2.1: the largest HALFCYC, 0x80000000. -/
theorem test_rdHalfcyc_largest : seen (exec .rdHalfcyc { slow with par := ⟨4294967295, 16, 1⟩, freq := 1 }) (·.hRdata) =
    some 0x80000000 := by decide

/-- 95_test_vectors.md 2.1: SETTLECYC at 16 MHz, 1 MHz and 4 294 967 295 Hz. -/
theorem test_rdSettlecyc : [16000000, 1000000, 4294967295].map (fun f : Nat =>
    seen (exec .rdSettlecyc { slow with par := ⟨f, 16, 500000⟩ }) (·.hRdata.toNat)) =
    [some 160, some 10, some 42950] := by decide

/-- 95_test_vectors.md 2.5: in a sample segment after INIT. -/
theorem test_rdStatus_sample : seen (exec .rdStatus { inSegment .capture 277 slow with sclk := true, initd := true })
    (·.hRdata) = some 0x00060403 := by decide +kernel

/-- 95_test_vectors.md 2.5: idle and READY with ERR and ERROVF set. -/
theorem test_rdStatus_errors : seen (exec .rdStatus { slow with sclk := true, initd := true, err := true, errovf := true })
    (·.hRdata) = some 0x00020132 := by decide +kernel

/-- R124: after `WR @0x20, 0` from a clear state ERRCAUSE reads 4. -/
theorem test_rdErrcause : seen (andThen (exec (.illWr 0x20 0) slow) (exec .rdErrcause)) (·.hRdata) = some 4 := by decide

/-- 95_test_vectors.md 2.6, at the edges of the blocks. -/
theorem test_rdPos_capture : [0, 1, 265, 267, 268, 269, 274, 275, 658, 659, 664].map (fun k =>
    seen (exec .rdPos (inSegment .capture k slow)) (·.hRdata)) =
    [some 0x00003000, some 0x01003001, some 0x01834109, some 0x0184410B, some 0x0300510C, some 0x0000610D,
      some 0x01017112, some 0x00008113, some 0x027F8292, some 0x00009293, some 0x01029298] := by decide +kernel

/-- 95_test_vectors.md 2.6: during an INIT. -/
theorem test_rdPos_init : [0, 1, 2, 267].map (fun k => seen (exec .rdPos (inSegment .init k slow)) (·.hRdata)) =
    [some 0x00001000, some 0x01001001, some 0x00002002, some 0x0184210B] := by decide +kernel

/-- R126: 134 after a completed INIT. -/
theorem test_rdRisecnt : seen (exec .rdRisecnt { slow with risecnt := 134 }) (·.hRdata) = some 134 := by decide

/-- R127: 128 after a completed CAPTURE. -/
theorem test_rdSampcnt : seen (exec .rdSampcnt { slow with sampcnt := 128 }) (·.hRdata) = some 128 := by decide

/-- 95_test_vectors.md P2: a sample of 0x1234 is read back from its own entry. -/
theorem test_rdFrame : seen (exec (.rdFrame 127) (storeSample 127 0x1234 slow)) (·.hRdata) = some 0x1234 := by
  decide +kernel

/-- R129. -/
theorem test_rdRsvd : seen (exec (.rdRsvd 0x09) { slow with hRdata := 5 }) (·.hRdata) = some 0 := by decide

/-- 95_test_vectors.md 2.3: reserved is checked before busy. -/
theorem test_illCmd_busy : seen (exec (.illCmd 5) (inSegment .init 5 slow)) (fun t => (t.err, t.errovf, t.errcause)) =
    some (true, false, .rsvdCmd) := by decide

/-- 95_test_vectors.md 2.3: with ERR = 1 the first cause is kept. -/
theorem test_illCmd_second : seen (exec (.illCmd 7) { slow with err := true, errcause := .unmapped })
    (fun t => (t.err, t.errovf, t.errcause)) = some (true, true, .unmapped) := by decide

/-- 95_test_vectors.md 2.4: the cause by the address, at the edges of the ranges. -/
theorem test_illWr_causes : [0x02#8, 0x08#8, 0x09#8, 0x7F#8, 0x80#8, 0xFF#8].map
    (fun wa => seen (exec (.illWr wa 0xFFFFFFFF) slow) (·.errcause)) =
    [some .wrRo, some .wrRo, some .unmapped, some .unmapped, some .wrRo, some .wrRo] := by decide

/-! ## One cycle -/

/-- 95_test_vectors.md 2.8: INIT presented with `rst = 1` is ignored, whatever state the block was in. -/
theorem test_reset_cycle : seen (runCycle { writing 0x00 1 with rst := true } { inSegment .capture 300 slow with
    par := ⟨1000000, 16, -5⟩, freq := 1000, si := true, sclk := true, initd := true, fvalid := true })
    (fun t => (t.op, t.si, t.sclk, t.initd, t.err, t.freq.toNat)) =
    some (.none, false, false, false, false, 500000) := by decide +kernel

/-- 95_test_vectors.md P4: segment 2 ends with the FREQ written in its last cycle, and segment 3 has two cycles. -/
theorem test_freq_next_load : seen (runCycle (writing 0x01 250000) (inSegment .init 2 slow))
    (fun t => (t.seg, t.sclk, t.tcnt, t.freq.toNat)) = some (3, true, 1, 250000) := by decide +kernel

/-- 95_test_vectors.md 2.7: in the request cycle `adc_done_i` is not examined. -/
theorem test_request_ignores_adc : seen (runCycle { quiet with adcDone := true, adcData := 7 }
    (inSegment .capture 277 slow)) (fun t => (t.seg, t.sph, t.sampcnt)) = some (277, .wait, 0) := by decide +kernel

/-- R96: an answered wait stores the low ADC_W bits and goes on to the low half of the next pulse. -/
theorem test_sample_stored : seen (runCycle { quiet with adcDone := true, adcData := 0xABCD1234 }
    { inSegment .capture 277 slow with sph := .wait, sclk := true })
    (fun t => (t.frame[(0 : Pixel)], t.sampcnt, t.seg, t.sclk)) = some (some 0x1234, 1, 278, false) := by decide +kernel

/-- R99: the last cycle of an INIT. -/
theorem test_init_ends : seen (runCycle (reading 0x04) { inSegment .init 267 slow with sclk := true })
    (fun t => (t.op, t.seg, t.initd, t.sclk, t.hRdata)) = some (.none, 0, true, true, 0x00020201) := by decide +kernel

/-- R110, counted over the programs themselves. -/
theorem test_program_counts : risingEdges false (prog .init) = 134 ∧ risingEdges false (prog .capture) = 268 ∧
    sampleCount (prog .init) = 0 ∧ sampleCount (prog .capture) = 128 := by decide +kernel

/-- R61: the bridge. -/
theorem test_bridge : bridgeTxn ⟨true, 4, 4, 0x90, 0xD0, 0x03, 0x00⟩ = .next ⟨true, 0x01, 250000⟩ ∧
    bridgeTxn ⟨true, 4, 2, 0, 0, 0, 0⟩ = .refused .bridgeWidth ∧
    bridgeTxn ⟨true, 6, 4, 0, 0, 0, 0⟩ = .refused .bridgeMisaligned ∧
    bridgeTxn ⟨true, 1024, 4, 0, 0, 0, 0⟩ = .refused .bridgeOutside := by
  refine ⟨by rfl, by rfl, by rfl, by rfl⟩

/-- The word placed for the first cycle after reset is run by it. -/
theorem test_placed_init : seen (step (State.reset.withFetchWord 48 0x10000000001)) (fun t => (t.op, t.si, t.sclk)) =
    some (.init, true, false) := by decide +kernel

/-! ## Witnesses: the hypotheses of every statement can be met, each clause at its bounds -/

/-- The inputs `ins` laid out for the coming cycles. -/
def fed (ins : List CycleInput) (s : State) : State := { s with stim := ins }

/-- The outcome is a next state. -/
def completes (o : Host.Outcome State Fault Refusal) : Bool := (seen o fun _ => ()).isSome

theorem next_of_completes {o : Host.Outcome State Fault Refusal} (h : completes o = true) : ∃ t, o = .next t := by
  cases o with
  | next t => exact ⟨t, rfl⟩
  | fault r => cases h
  | refused r => cases h

/-- A cycle of reset. -/
def resetting : CycleInput := { quiet with rst := true }

/-- A cycle that answers a request. -/
def answering : CycleInput := { quiet with adcDone := true, adcData := 0x1234 }

theorem witness_params : slow.par.wf ∧ fast.par.wf ∧ (⟨4294967295, 32, -2147483648⟩ : Config.Params).wf ∧
    (⟨1000000, 1, 500000⟩ : Config.Params).wf := by decide

/-- Legality says nothing of the inputs laid out. -/
theorem legal_fed {s : State} (h : Legal s) (ins : List CycleInput) : Legal (fed ins s) :=
  ⟨h.params, h.freqLegal, h.idleSeg, h.busySeg, h.timer, h.lines, h.riseCount, h.sampleCounted, h.countsBounded, h.noError,
    h.someError, h.frameWidth, h.frameProgress, h.frameValid⟩

/-- An idle legal state. -/
theorem witness_legal_idle : Legal slow where
  params := by decide
  freqLegal := by decide
  idleSeg := fun _ => rfl
  busySeg := fun h => absurd rfl h
  timer := by decide
  lines := fun h => absurd rfl h
  riseCount := fun h => absurd rfl h
  sampleCounted := fun h => absurd rfl h
  countsBounded := by decide
  noError := fun _ => ⟨rfl, rfl⟩
  someError := fun h => by cases h
  frameWidth := frameFits_resetOf _
  frameProgress := fun h => by cases h
  frameValid := fun h => by cases h

/-- A legal state in which a sequence runs: the last segment of an INIT, with an error recorded. -/
theorem witness_legal_busy : Legal { inSegment .init 267 slow with
    sclk := true, risecnt := 134, err := true, errcause := .wrRo } where
  params := by decide
  freqLegal := by decide
  idleSeg := fun h => by cases h
  busySeg := fun _ => by decide +kernel
  timer := by decide
  lines := fun _ => by decide +kernel
  riseCount := fun _ => by decide +kernel
  sampleCounted := fun _ => by decide +kernel
  countsBounded := by decide
  noError := fun h => by cases h
  someError := fun _ h => by cases h
  frameWidth := frameFits_resetOf _
  frameProgress := fun h => by cases h
  frameValid := fun h => by cases h

/-- DecodeOfEncodeIsIdentity. -/
theorem witness_wf : ∀ i ∈ [Instr.nop, .setclk 0xFFFFFFFF, .rdFrame 0, .rdFrame 127, .rdRsvd 0x09, .rdRsvd 0x7F, .illCmd 4,
    .illCmd 0xFFFFFFFF, .illWr 0x02 0, .illWr 0xFF 0xFFFFFFFF], i.wf = true := by decide

/-- StepRunsDecodedTransaction, of an idle and of a busy block, directly and through a bridge. -/
theorem witness_transaction_cycle :
    (∀ s ∈ [fed [writing 0x00 1] slow, fed [writing 0x00 1] (inSegment .capture 664 slow)],
      nextInput s = writing 0x00 1 ∧ (writing 0x00 1).rst = false) ∧
    presented (writing 0x00 1).host = .next (some ⟨true, 0x00, 1⟩) ∧
    presented (.bridged ⟨false, 1020, 4, 0, 0, 0, 0⟩) = .next (some ⟨false, 0xFF, 0⟩) := by
  refine ⟨fun s hs => ?_, rfl, rfl⟩
  simp only [List.mem_cons, List.not_mem_nil, or_false] at hs
  rcases hs with rfl | rfl <;> exact ⟨rfl, rfl⟩

/-- StepWithoutTransactionRunsSequencer and IdleBlockKeepsState. -/
theorem witness_quiet_cycle : nextInput (fed [quiet] slow) = quiet ∧ quiet.rst = false ∧ quiet.host = .idle ∧
    (fed [quiet] slow).op = .none := ⟨rfl, rfl, rfl, rfl⟩

/-- PlacedWordIsRunByStep. -/
theorem witness_placed : (Instr.illWr 0xFF 1).wf = true ∧ State.reset.op = .none := ⟨by decide, rfl⟩

/-- ResetCycleGivesResetState, with CTOR_FREQ in range and out of range. -/
theorem witness_reset_cycle :
    (nextInput (fed [resetting] (inSegment .capture 300 slow))).rst = true ∧
    (1 ≤ slow.par.ctorFreq ∧ slow.par.ctorFreq ≤ 500000) ∧
    (nextInput (fed [resetting] { slow with par := ⟨1000000, 16, 500001⟩ })).rst = true := ⟨rfl, by decide, rfl⟩

/-- ResetStateIsLegal: a power-up state that is not legal. -/
theorem witness_power_up : PowerUp (fed [resetting] { inSegment .none 1023 slow with freq := 0 }) := ⟨by decide, rfl⟩

/-- ReadsAfterReset: CTOR_FREQ at both ends of its range, beyond it, and the default. -/
theorem witness_reads_after_reset : (⟨16000000, 16, 1⟩ : Config.Params).wf ∧ (⟨16000000, 16, 500001⟩ : Config.Params).wf ∧
    (⟨16000000, 16, -5⟩ : Config.Params).wf ∧ fast.par.wf ∧ fast.par.ctorFreq = 500000 ∧
    ((1 : Nat) : Int) = (if 1 ≤ (1 : Int) ∧ (1 : Int) ≤ 500000 then 1 else 500000) ∧
    ((500000 : Nat) : Int) = (if 1 ≤ (-5 : Int) ∧ (-5 : Int) ≤ 500000 then -5 else 500000) := by decide

/-- CycleOutputs: a read, a write, a cycle of reset, a cycle without a transaction and a bridged read complete. -/
theorem witness_outputs : (∃ t, step (fed [reading 0xFF] slow) = .next t) ∧
    (∃ t, step (fed [writing 0x09 0] slow) = .next t) ∧ (∃ t, step (fed [resetting] slow) = .next t) ∧
    (∃ t, step (fed [quiet] slow) = .next t) ∧
    (∃ t, step (fed [⟨false, .bridged ⟨false, 1020, 4, 0, 0, 0, 0⟩, false, 0⟩] slow) = .next t) ∧
    presented (.bridged ⟨false, 1020, 4, 0, 0, 0, 0⟩) = .next (some ⟨false, 0xFF, 0⟩) :=
  ⟨next_of_completes (by decide +kernel), next_of_completes (by decide +kernel), next_of_completes (by decide +kernel),
    next_of_completes (by decide +kernel), next_of_completes (by decide +kernel), rfl⟩

/-- InitAcceptedWhenIdle, CaptureAcceptedWhenIdle and CommandWhileBusyRejected. -/
theorem witness_idle_and_busy : slow.op = .none ∧ (inSegment .init 0 slow).op ≠ .none ∧
    (inSegment .capture 664 slow).op ≠ .none := by decide

/-- SetclkClampsFrequency: both sides of both bounds. -/
theorem witness_setclk : (1 ≤ (1#32).toInt ∧ (1#32).toInt ≤ 500000) ∧ (1 ≤ (500000#32).toInt ∧ (500000#32).toInt ≤ 500000) ∧
    (0#32).toInt < 1 ∧ (0x80000000#32).toInt < 1 ∧ 500000 < (500001#32).toInt ∧ 500000 < (0x7FFFFFFF#32).toInt := by decide

/-- ReservedCommandRecordsRsvdCmd. -/
theorem witness_reserved_cmd : 4 ≤ (4#32).toNat % 16 ∧ 4 ≤ (15#32).toNat % 16 ∧ (16#32).toNat / 16 ≠ 0 ∧
    (0x80000001#32).toNat / 16 ≠ 0 := by decide

/-- IllegalWriteRecordsCauseByAddress: the ends of its three ranges. -/
theorem witness_illegal_write : (2 ≤ (0x02#8).toNat ∧ (0x08#8).toNat ≤ 8) ∧ (¬ (0x09#8).toNat ≤ 8 ∧ (0x7F#8).toNat ≤ 0x7F) ∧
    (¬ (0x80#8).toNat ≤ 0x7F ∧ 2 ≤ (0xFF#8).toNat) := by decide

/-- ReservedWordsReadZero. -/
theorem witness_reserved_word : (9 ≤ (0x09#8).toNat ∧ (0x09#8).toNat ≤ 0x7F) ∧
    (9 ≤ (0x7F#8).toNat ∧ (0x7F#8).toNat ≤ 0x7F) := by decide

/-- ElementReadsAreZeroExtended: each of its three reads. -/
theorem witness_element_reads : slow.freq.toNat = 500000 ∧ slow.risecnt.toNat = 0 ∧ slow.sampcnt.toNat = 0 := by decide

/-- HalfcycIsLeastCover, RealisedHalfPeriodBounds and SettlecycIsLeastCover, at both ends of FREQ. -/
theorem witness_frequencies : slow.par.wf ∧ (slow.freq.toNat = 500000 ∧ 1 ≤ slow.freq.toNat) ∧
    ({ slow with freq := 1 } : State).freq.toNat = 1 := by decide

/-- PosFieldsRead: both ends of every row of the table. -/
theorem witness_pos_rows : (inSegment .init 0 slow).seg.toNat ≤ 1 ∧ (inSegment .init 1 slow).seg.toNat ≤ 1 ∧
    2 ≤ (inSegment .init 2 slow).seg.toNat ∧ (inSegment .init 267 slow).seg.toNat = 267 ∧
    (inSegment .capture 268 slow).seg.toNat = 268 ∧
    (∀ k ∈ [269, 270, 271, 274, 275, 658, 659, 664], (inSegment .capture k slow).seg.toNat = k) := by decide

/-- FrameReads: an entry that is written and one that is not. -/
theorem witness_frame_reads : slow.par.wf ∧ (storeSample 5 7 slow).frame[(5 : Pixel)] = some 7 ∧
    slow.frame[(5 : Pixel)] = none := by decide +kernel

/-- SubNamesTheSegmentKind, HoldCountsDown and HoldEndLoadsNextSegment: a half hold, the settle hold and a sample segment,
each current and each next. -/
theorem witness_segments :
    [0, 1, 266, 267].map (fun k => (prog .init)[k]?) = [some (.hold true false .half), some (.hold true true .half),
      some (.hold false false .half), some (.hold false true .half)] ∧
    [267, 268, 276, 277, 658].map (fun k => (prog .capture)[k]?) = [some (.hold false true .half),
      some (.hold false true .settle), some (.hold false true .half), some (.sample 0), some (.sample 127)] := by
  decide +kernel

/-- HoldCountsDown and HoldEndLoadsNextSegment: a timer that runs and one that has ended. -/
theorem witness_timers : 0 < ({ inSegment .init 0 slow with tcnt := 1 } : State).tcnt.toNat ∧
    (inSegment .init 0 slow).tcnt = 0 := by decide

/-- LastSegmentEndsSequence. -/
theorem witness_last_segments : (inSegment .init 267 slow).tcnt = 0 ∧ (inSegment .init 267 slow).seg.toNat = 267 ∧
    (inSegment .capture 664 slow).seg.toNat = 664 := by decide

/-- SampleHandshake: the first and the last pixel, in both phases. -/
theorem witness_handshake : (inSegment .capture 277 slow).seg.toNat = 277 + 3 * (0 : Pixel).val ∧
    (inSegment .capture 658 slow).seg.toNat = 277 + 3 * (127 : Pixel).val ∧ (inSegment .capture 277 slow).sph = .req ∧
    ({ inSegment .capture 277 slow with sph := .wait } : State).sph = .wait := by decide

/-- HostAndSequencerWriteApart: a busy state, a sequencer that completes, and a command in an idle cycle. -/
theorem witness_write_apart : (inSegment .init 5 slow).op ≠ .none ∧
    (∃ t, sequencer true 7 { inSegment .capture 277 slow with sph := .wait } = .next t) ∧
    (∃ a, exec (decode (Machine.Txn.word ⟨true, 0x00, 1⟩)) (driveRdata 0 slow) = .next a) ∧
    (∃ t, runCycle (writing 0x00 1) slow = .next t) ∧ slow.op = .none := by
  exact ⟨by decide, next_of_completes (by decide +kernel), next_of_completes (by decide +kernel),
    next_of_completes (by decide +kernel), rfl⟩

/-- RejectionIsPrecise: the cycle without the transaction completes, and each of the four rejections. -/
theorem witness_rejections : (∃ b, runCycle quiet (inSegment .init 5 slow) = .next b) ∧ (inSegment .init 5 slow).op ≠ .none ∧
    4 ≤ (4#32).toNat ∧ (2 ≤ (0x02#8).toNat ∧ (0x02#8).toNat ≤ 8) ∧ 0x80 ≤ (0xFF#8).toNat ∧
    (9 ≤ (0x7F#8).toNat ∧ (0x7F#8).toNat ≤ 0x7F) :=
  ⟨next_of_completes (by decide +kernel), by decide, by decide, by decide, by decide, by decide⟩

/-- OnlyFreqWriteTouchesRunningSequence. -/
theorem witness_running : (inSegment .init 5 slow).op ≠ .none ∧ (writing 0x00 2).rst = false ∧
    (writing 0x00 2).host = .txn ⟨true, 0x00, 2⟩ ∧ ¬ ((⟨true, 0x00, 2⟩ : Txn).we = true ∧ (⟨true, 0x00, 2⟩ : Txn).wa = 1) ∧
    (∃ b, runCycle { writing 0x00 2 with host := .idle } (inSegment .init 5 slow) = .next b) :=
  ⟨by decide, rfl, rfl, by decide, next_of_completes (by decide +kernel)⟩

/-- NewPeriodFromNextLoad: a running timer; an ended timer before a half hold. -/
theorem witness_new_period : (writing 0x01 250000).rst = false ∧ (writing 0x01 250000).host = .txn ⟨true, 0x01, 250000⟩ ∧
    [0, 0 + 1].map (fun k => (prog (inSegment .init 0 slow).op)[k]?) =
      [some (.hold true false .half), some (.hold true true .half)] ∧
    (inSegment .init 0 slow).tcnt = 0 ∧ slow.par.wf := ⟨rfl, rfl, by decide +kernel, rfl, by decide⟩

/-- FreqChangesOnlyBySetclkOrReset: FREQ changes by a write, and by reset. -/
theorem witness_freq_changes :
    seen (step (fed [writing 0x01 7] slow)) (fun t => decide (t.freq ≠ slow.freq)) = some true ∧
    seen (step (fed [resetting] { slow with freq := 7 })) (fun t => decide (t.freq ≠ 7)) = some true := by decide +kernel

/-- InitdSetByInitEndClearedByReset: the end of an INIT, and reset. -/
theorem witness_initd :
    seen (step (fed [quiet] (inSegment .init 267 slow))) (fun t => (t.op, t.initd)) = some (.none, true) ∧
    seen (step (fed [resetting] { slow with initd := true })) (·.initd) = some false := by decide +kernel

/-- ErrorsClearedOnlyByClrerrOrReset: a cycle with ERR = 1 and no CLRERR. -/
theorem witness_error_kept : (∃ t, step (fed [quiet] { slow with err := true, errcause := .wrRo }) = .next t) ∧
    (∀ u : Txn, presented quiet.host = .next (some u) → ¬ (u.we = true ∧ u.wa = 0 ∧ u.data = 3)) :=
  ⟨next_of_completes (by decide +kernel), fun u h => by cases h⟩

/-- FrameWrittenOnlyBySample: a step that changes an entry. -/
theorem witness_frame_written :
    seen (step (fed [answering] { inSegment .capture 658 slow with sph := .wait }))
      (fun t => decide (t.frame[(127 : Pixel)] ≠ slow.frame[(127 : Pixel)])) = some true := by decide +kernel

/-- SegNeverJumps and RisecntCountsRisingEdges: a step of a running sequence. -/
theorem witness_running_step : (inSegment .init 2 slow).op ≠ .none ∧
    ∃ t, step (fed [quiet] (inSegment .init 2 slow)) = .next t := ⟨by decide, next_of_completes (by decide +kernel)⟩

/-- StepKeepsLegalStates and SiChangesWithClockLow: a legal state and a step in which SI changes. -/
theorem witness_si_changes : Legal (fed [writing 0x00 1] slow) ∧
    seen (step (fed [writing 0x00 1] slow)) (fun t => decide (t.si ≠ slow.si)) = some true :=
  ⟨legal_fed witness_legal_idle _, by decide +kernel⟩

/-- LegalStatesNeverStop: the steps that stop are from legal states too. -/
theorem witness_legal_refused : Legal (fed [⟨false, .bridged ⟨true, 0, 1, 0, 0, 0, 0⟩, false, 0⟩] slow) ∧
    seen (step (fed [⟨false, .bridged ⟨true, 0, 1, 0, 0, 0, 0⟩, false, 0⟩] slow)) (·.op) = none :=
  ⟨legal_fed witness_legal_idle _, by decide +kernel⟩

/-- UnansweredSampleHangs: a wait of 3 cycles, with a transaction in one of them. -/
theorem witness_unanswered : ({ inSegment .capture 277 slow with sph := .wait } : State).op = .capture ∧
    (inSegment .capture 277 slow).seg.toNat = 277 + 3 * (0 : Pixel).val ∧
    (∀ inp ∈ [quiet, writing 0x01 5, reading 0x04],
      inp.rst = false ∧ inp.adcDone = false ∧ ∃ o, presented inp.host = .next o) := by
  refine ⟨rfl, by decide, fun inp h => ?_⟩
  simp only [List.mem_cons, List.not_mem_nil, or_false] at h
  rcases h with rfl | rfl | rfl <;> exact ⟨rfl, rfl, _, rfl⟩

/-- A legal state that waits for the last sample of a CAPTURE. -/
def lastWait : State := { inSegment .capture 658 slow with
  sph := .wait, sclk := true, risecnt := 265, sampcnt := 127, frame := Vector.replicate 128 (some 0) }

theorem witness_legal_wait : Legal lastWait where
  params := by decide
  freqLegal := by decide
  idleSeg := fun h => by cases h
  busySeg := fun _ => by decide +kernel
  timer := by decide
  lines := fun _ => by decide +kernel
  riseCount := fun _ => by decide +kernel
  sampleCounted := fun _ => by decide +kernel
  countsBounded := by decide
  noError := fun _ => ⟨rfl, rfl⟩
  someError := fun h => by cases h
  frameWidth := fun i v h => by
    have e : lastWait.frame[i] = some 0 := by simp [lastWait]
    rw [e] at h
    injection h with h
    subst h
    decide
  frameProgress := fun _ i _ => by simp [lastWait]
  frameValid := fun h => by cases h

/-- InitTraceCounts, first part: the last cycle of an INIT, with a FREQ write in it. -/
theorem witness_init_rest : Legal { inSegment .init 267 slow with
      sclk := true, risecnt := 134, err := true, errcause := .wrRo } ∧
    (∀ inp ∈ [writing 0x01 250000], inp.rst = false) ∧
    lasts .init 1 (fed [writing 0x01 250000] { inSegment .init 267 slow with
      sclk := true, risecnt := 134, err := true, errcause := .wrRo }) = true :=
  ⟨witness_legal_busy, by decide, by decide +kernel⟩

/-- CaptureTraceCounts, first part: a sample answered late, a FREQ write, and the six segments after it. -/
theorem witness_capture_rest : Legal lastWait ∧ lastWait.op = .capture ∧
    (∀ inp ∈ [quiet, quiet, answering, quiet, quiet, quiet, quiet, quiet, writing 0x01 250000], inp.rst = false) ∧
    lasts .capture 9 (fed [quiet, quiet, answering, quiet, quiet, quiet, quiet, quiet, writing 0x01 250000] lastWait) = true :=
  ⟨witness_legal_wait, rfl, by decide, by decide +kernel⟩

/-- InitDuration and InitTraceCounts, second part: at F_SYS = 1 000 000 an INIT lasts 268 cycles (95_test_vectors.md 2.7). -/
theorem witness_init_run : Legal slow ∧ slow.op = .none ∧ (writing 0x00 1).rst = false ∧
    (writing 0x00 1).host = .txn ⟨true, 0x00, 1⟩ ∧ calm quiet = true ∧
    (List.replicate 268 quiet).length = 268 * halfcyc slow.par slow.freq.toNat :=
  ⟨witness_legal_idle, rfl, rfl, rfl, rfl, by rw [List.length_replicate]; decide⟩

/-- CaptureDuration and CaptureTraceCounts, second part: at F_SYS = 1 000 000 a CAPTURE lasts 802 cycles (95_test_vectors.md 2.7). -/
theorem witness_capture_run : Legal slow ∧ slow.op = .none ∧ (writing 0x00 2).rst = false ∧
    (writing 0x00 2).host = .txn ⟨true, 0x00, 2⟩ ∧ (calm answering = true ∧ answering.adcDone = true) ∧
    (List.replicate 802 answering).length = 536 * halfcyc slow.par slow.freq.toNat + settlecyc slow.par + 256 :=
  ⟨witness_legal_idle, rfl, rfl, rfl, ⟨rfl, rfl⟩, by rw [List.length_replicate]; decide⟩

/-- BridgeIsLittleEndianWordsOnly: an access that is taken, at both ends of the window, and one of each kind refused. -/
theorem witness_bridge : (∀ o ∈ [0, 1020], o % 4 = 0 ∧ o < 1024) ∧ (2 ≠ 4 ∧ 8 ≠ 4) ∧ (1021 % 4 ≠ 0) ∧
    (1024 % 4 = 0 ∧ 1024 ≤ 1024) ∧
    nextInput (fed [⟨false, .bridged ⟨true, 1024, 4, 0, 0, 0, 0⟩, false, 0⟩] slow) =
      ⟨false, .bridged ⟨true, 1024, 4, 0, 0, 0, 0⟩, false, 0⟩ := ⟨by decide, by decide, by decide, by decide, rfl⟩

end Sys2Proof.Tests
end

section
/-!
PROOFS. Every transaction is a bus primitive (R20), and the half period is a least cover (R16).
-/

namespace Sys2Proof.Machine

/-! ## Every transaction is a bus primitive (R20) -/

/-- Bit 7 of a word address selects FRAME (R41). -/
theorem getLsbD_seven_iff (wa : WordAddr) : wa.getLsbD 7 = true ↔ 0x80 ≤ wa.toNat := by
  rw [show wa.getLsbD 7 = wa.msb from (BitVec.msb_eq_getLsbD_last wa).symm, BitVec.msb_eq_decide]
  simp

/-- A read is BusRead of its address (R119..R129). -/
theorem exec_decodeRead (wa : WordAddr) (s : State) : exec (decodeRead wa) s = .next (driveRdata (busRead wa s) s) := by
  unfold decodeRead
  split_ifs with h0 h1 h2 h3 h4 h5 h6 h7 h8 hf
  any_goals (subst wa; rfl)
  · simp [exec, execRdFrame, busRead, (getLsbD_seven_iff wa).mp hf]
  · have hlow : ¬ 0x80 ≤ wa.toNat := fun h => hf ((getLsbD_seven_iff wa).mpr h)
    have hzero : busRead wa s = 0 := by
      unfold busRead
      rw [if_neg hlow]
      split
      any_goals (exfalso; bv_omega)
      rfl
    rw [hzero]; rfl

/-- A write to CMD is the decode of R112. -/
theorem exec_decodeCmd (d : Word) (s : State) : exec (decodeCmd d) s = .next (cmdWrite d s) := by
  unfold decodeCmd
  split_ifs with h0 h1 h2 h3
  · subst d; rfl
  · subst d; rfl
  · subst d; rfl
  · subst d; rfl
  · have hrsvd : d.extractLsb' 4 28 ≠ 0 ∨ 4 ≤ (d.extractLsb' 0 4).toNat := by
      have hfour : 4 ≤ d.toNat := by bv_omega
      have hlt := d.isLt
      simp only [ne_eq, ← BitVec.toNat_inj, BitVec.extractLsb'_toNat, Nat.shiftRight_eq_div_pow,
        BitVec.ofNat_eq_ofNat, BitVec.toNat_ofNat]
      omega
    simp only [cmdWrite, if_pos hrsvd]; rfl

/-- A write is BusWrite of its address (R112, R115, R130). -/
theorem exec_decodeWrite (wa : WordAddr) (d : Word) (s : State) :
    exec (decodeWrite wa d) s = .next (busWrite wa d s) := by
  unfold decodeWrite
  split_ifs with h0 h1
  · subst wa; exact exec_decodeCmd d s
  · subst wa; rfl
  · have h0' : wa.toNat ≠ 0 := fun h => h0 (BitVec.eq_of_toNat_eq h)
    have h1' : wa.toNat ≠ 1 := fun h => h1 (BitVec.eq_of_toNat_eq h)
    simp only [exec, execIllWr, busWrite, h0', h1', if_false, wrCause, reservedAddr, Bool.and_eq_true, decide_eq_true_eq]
    split_ifs <;> rfl

/-- Settles O13: a read and a write, each by its address. -/
theorem transactionsAreBusPrimitives : Obligations.TransactionsAreBusPrimitives := by
  unfold Obligations.TransactionsAreBusPrimitives
  intro s wa d
  simp only [decode_txnWord]
  exact ⟨exec_decodeRead wa s, exec_decodeWrite wa d s⟩

/-! ## The half period (R16) -/

/-- HALFCYC fits its 32-bit register for every legal FREQ (R16, R121). -/
theorem halfcycWord_toNat {s : State} (hp : s.par.wf) (h1 : 1 ≤ s.freq.toNat) (h2 : s.freq.toNat ≤ 500000) :
    (halfcycWord s).toNat = halfcyc s.par s.freq.toNat := by
  have hrange := (halfcyc_range hp h1 h2).2
  simp only [halfcycWord, BitVec.toNat_ofNat]
  omega

/-- Settles O27: HALFCYC is the ceiling of R16. -/
theorem halfcycIsLeastCover : Obligations.HalfcycIsLeastCover := by
  unfold Obligations.HalfcycIsLeastCover
  refine ⟨by decide, fun s hp h1 h2 => ⟨driveRdata (halfcycWord s) s, rfl, rfl, ?_⟩⟩
  have hpos : 0 < 2 * s.freq.toNat := by omega
  rw [driveRdata_hRdata, halfcycWord_toNat hp h1 h2]
  exact ⟨(ceilDiv_cover _ _ hpos).1, fun q => ceilDiv_least hpos, halfcyc_range hp h1 h2⟩

end Sys2Proof.Machine
end

section
/-!
PROOFS. What a cycle of a running sequence can do, said once as a move, and a sequence that runs to its end.
-/

namespace Sys2Proof.Machine

/-! ## What a cycle of a running sequence can do -/

/-- The host's part during a sequence writes FREQ, the error elements and the read data alone (R103). -/
theorem hostPart_running {h : HostLane} {s a : State} (ho : s.op ≠ .none) (hh : hostPart h s = .next a) :
    ∃ f e ov c v, a = { s with freq := f, err := e, errovf := ov, errcause := c, hRdata := v } := by
  rcases hostPart_cases hh with ⟨-, rfl⟩ | ⟨t, -, he⟩
  · exact ⟨_, _, _, _, _, rfl⟩
  · obtain ⟨b, hb, hcases⟩ := exec_cases (decode t.word) (driveRdata 0 s)
    rw [hb] at he
    injection he with he
    subst he
    rcases hcases with rfl | ⟨op, -, rfl⟩ | ⟨-, rfl⟩ | ⟨d, -, rfl⟩ | ⟨c, -, rfl⟩ | ⟨v, -, rfl⟩
    · exact ⟨_, _, _, _, _, rfl⟩
    · rw [command_busy (by simpa using ho), raiseHostError_eq]; exact ⟨_, _, _, _, _, rfl⟩
    · exact ⟨_, _, _, _, _, rfl⟩
    · exact ⟨_, _, _, _, _, rfl⟩
    · rw [raiseHostError_eq]; exact ⟨_, _, _, _, _, rfl⟩
    · exact ⟨_, _, _, _, _, rfl⟩

/-- What a cycle without reset does to a running sequence, as far as its place in the program, its lines and its requests
show it (R95..R99): it stays in the segment, loads a hold, loads a sample, or ends. -/
inductive Move (s t : State) : Prop
  | stay (op : t.op = s.op) (seg : t.seg = s.seg) (si : t.si = s.si) (sclk : t.sclk = s.sclk)
      (risecnt : t.risecnt = s.risecnt) (sph : t.sph = if adcStart s = true then .wait else s.sph)
  | hold {d : HoldTime} (next : (prog s.op)[s.seg.toNat + 1]? = some (.hold t.si t.sclk d))
      (noStart : adcStart s = false) (op : t.op = s.op) (seg : t.seg.toNat = s.seg.toNat + 1)
      (risecnt : t.risecnt = if s.sclk = false ∧ t.sclk = true then s.risecnt + 1 else s.risecnt)
  | sample {i : Pixel} (next : (prog s.op)[s.seg.toNat + 1]? = some (.sample i))
      (noStart : adcStart s = false) (op : t.op = s.op) (seg : t.seg.toNat = s.seg.toNat + 1)
      (si : t.si = s.si) (sclk : t.sclk = s.sclk) (risecnt : t.risecnt = s.risecnt) (sph : t.sph = .req)
  | finish (last : s.seg.toNat + 1 = (prog s.op).length) (noStart : adcStart s = false) (op : t.op = .none)
      (si : t.si = s.si) (sclk : t.sclk = s.sclk) (risecnt : t.risecnt = s.risecnt)

/-- SEG holds the index of every segment of a program (R28). -/
theorem segIndex_toNat {op : Op} {k : Nat} {g : Segment} (h : (prog op)[k]? = some g) :
    (BitVec.ofNat 10 k).toNat = k := by
  have hlt := (List.getElem?_eq_some_iff.mp h).1
  have hlen := prog_length_lt op
  simp only [BitVec.toNat_ofNat]
  omega

/-- No request is shown in a hold segment (R101). -/
theorem adcStart_of_hold {s : State} {si ck : Bool} {d : HoldTime} (h : currentSegment s = some (.hold si ck d)) :
    adcStart s = false := by
  simp [adcStart, adcBusy, h, isSample]

/-- No request is shown while the block waits for the ADC (R101). -/
theorem adcStart_of_wait {s : State} (h : s.sph = .wait) : adcStart s = false := by
  simp [adcStart, h]

/-- The request cycle of a sample segment (R96, R101). -/
theorem adcStart_of_req {s : State} {i : Pixel} (h : currentSegment s = some (.sample i)) (hs : s.sph = .req) :
    adcStart s = true := by
  simp [adcStart, adcBusy, h, isSample, hs, busy, (currentSegment_lt h).1]

/-- A cycle that ends with `advance` goes on to the next segment or ends the sequence, also where a sample is stored first. -/
theorem move_advance {s a : State} {g : Segment} (hc : currentSegment a = some g) (hop : a.op = s.op)
    (hseg : a.seg = s.seg) (hsi : a.si = s.si) (hck : a.sclk = s.sclk) (hrise : a.risecnt = s.risecnt)
    (hno : adcStart s = false) : Move s (elapse (advance a)) := by
  rcases advance_cases hc with ⟨hl, e⟩ | ⟨si, ck, d, hn, e⟩ | ⟨i, hn, e⟩ <;>
    rw [e] <;> rw [hop, hseg] at *
  · exact .finish hl hno rfl hsi hck hrise
  · exact .hold hn hno hop (segIndex_toNat hn) (by simp [hck, hrise])
  · exact .sample hn hno hop (segIndex_toNat hn) hsi hck hrise rfl

/-- Every cycle of a running sequence without reset is a move, and uses up one input. -/
theorem step_move {s t : State} (ho : s.op ≠ .none) (hr : (nextInput s).rst = false) (h : step s = .next t) :
    Move s t ∧ t.stim = s.stim.tail := by
  rcases runCycle_cases h with ⟨hr', -⟩ | ⟨-, a, b, ha, hb, rfl⟩
  · simp [hr] at hr'
  obtain ⟨f, e, ov, c, v, rfl⟩ := hostPart_running ho ha
  rw [(busy_iff s).mpr ho, sequencerPart_busy] at hb
  have hstim : b.stim = s.stim := (sequencer_stim hb).trans rfl
  refine ⟨?_, congrArg List.tail hstim⟩
  rcases sequencer_cases hb with ⟨si, ck, d, hc, -, rfl⟩ | ⟨si, ck, d, hc, -, rfl⟩ | ⟨i, hc, hs, rfl⟩ |
    ⟨i, hc, hs, -, rfl⟩ | ⟨i, hc, hs, -, rfl⟩
  · have hno : adcStart s = false := adcStart_of_hold hc
    exact .stay rfl rfl rfl rfl rfl (by simp [hno])
  · exact move_advance hc rfl rfl rfl rfl rfl (adcStart_of_hold (s := s) hc)
  · have hst : adcStart s = true := adcStart_of_req hc hs
    exact .stay rfl rfl rfl rfl rfl (by simp [hst])
  · exact move_advance (a := storeSample i _ _) hc rfl rfl rfl rfl rfl (adcStart_of_wait (s := s) hs)
  · have hno : adcStart s = false := adcStart_of_wait hs
    exact .stay rfl rfl rfl rfl rfl (by simp [hno])

/-- Settles O50: a move writes the sensor clock and RISECNT together. -/
theorem risecntCountsRisingEdges : Obligations.RisecntCountsRisingEdges := by
  unfold Obligations.RisecntCountsRisingEdges
  intro s t ho h hr
  cases (step_move ho hr h).1 with
  | stay op seg si sclk risecnt sph => simp [sclk, risecnt]
  | hold next noStart op seg risecnt => exact risecnt
  | sample next noStart op seg si sclk risecnt sph => simp [sclk, risecnt]
  | finish last noStart op si sclk risecnt => simp [sclk, risecnt]

/-- A running sequence ends after exactly `n` more cycles, none of them a cycle of reset. -/
inductive RunsFor : Nat → State → Prop
  | last {s t : State} (running : s.op ≠ .none) (next : step s = .next t) (move : Move s t) (done : t.op = .none) :
      RunsFor 1 s
  | more {n : Nat} {s t : State} (running : s.op ≠ .none) (next : step s = .next t) (move : Move s t)
      (same : t.op = s.op) (rest : RunsFor n t) : RunsFor (n + 1) s

/-- `lasts` says it of inputs without reset. -/
theorem runsFor_of_lasts {op : Op} (hop : op ≠ .none) : ∀ {ins : List CycleInput} {s : State}, s.stim = ins →
    (∀ inp ∈ ins, inp.rst = false) → lasts op ins.length s = true → s.op = op → RunsFor ins.length s := by
  intro ins
  induction ins with
  | nil => intro s _ _ hl ho; exact absurd (ho.symm.trans ((lasts_zero op s).mp hl)) hop
  | cons inp rest ih =>
    intro s hs hr hl ho
    obtain ⟨-, t, hst, hl⟩ := lasts_succ.mp hl
    have hrun : s.op ≠ .none := ho ▸ hop
    obtain ⟨hm, hstim⟩ := step_move hrun (by simp [nextInput, hs, hr]) hst
    cases rest with
    | nil => exact .last hrun hst hm ((lasts_zero op t).mp hl)
    | cons inp' rest =>
      have ht : t.op = op := (lasts_succ.mp hl).1
      exact .more hrun hst hm (ht.trans ho.symm)
        (ih (by simp [hstim, hs]) (fun i hi => hr i (List.mem_cons_of_mem _ hi)) hl ht)

end Sys2Proof.Machine
end

section
/-!
PROOFS. The waveform programs: their edges, their samples, their segments by index and the level of SI (R106..R110).
-/

namespace Sys2Proof.Machine

/-! ## Edges and samples of the programs (R110) -/

theorem linesAfter_append (a b : List Segment) : ∀ l, linesAfter l (a ++ b) = linesAfter (linesAfter l a) b := by
  induction a with
  | nil => intro l; rfl
  | cons g a ih => intro l; cases g <;> exact ih _

/-- Edges add up over consecutive segments; the second part starts from the level the first part leaves. -/
theorem risingEdges_append (a b : List Segment) : ∀ si ck,
    risingEdges ck (a ++ b) = risingEdges ck a + risingEdges (linesAfter (si, ck) a).2 b := by
  induction a with
  | nil => intro si ck; simp [risingEdges, linesAfter]
  | cons g a ih =>
    intro si ck
    cases g with
    | hold si' ck' d => simp [risingEdges, linesAfter, ih si' ck', Nat.add_assoc]
    | sample i => exact ih si ck

theorem sampleCount_append (a b : List Segment) : sampleCount (a ++ b) = sampleCount a + sampleCount b := by
  induction a with
  | nil => simp [sampleCount]
  | cons g a ih => cases g <;> simp [sampleCount, ih, Nat.add_assoc]

/-- Each pulse starts low and gives one rising edge (R92). -/
theorem risingEdges_pulses_append (n : Nat) (r : List Segment) : ∀ ck,
    risingEdges ck (pulses n ++ r) = n + risingEdges (ck || decide (0 < n)) r := by
  induction n with
  | zero => intro ck; simp [pulses]
  | succ n ih => intro ck; simp [pulses, pulse, risingEdges, ih]; omega

/-- Each sampled pulse gives one rising edge (R93). -/
theorem risingEdges_sampledPulses_append (n : Nat) (r : List Segment) : ∀ i ck,
    risingEdges ck (sampledPulses i n ++ r) = n + risingEdges (ck || decide (0 < n)) r := by
  induction n with
  | zero => intro i ck; simp [sampledPulses]
  | succ n ih => intro i ck; simp [sampledPulses, sampledPulse, pulse, risingEdges, ih]; omega

theorem sampleCount_pulses (n : Nat) : sampleCount (pulses n) = 0 := by
  induction n with
  | zero => rfl
  | succ n ih => simpa [pulses, pulse, sampleCount] using ih

theorem sampleCount_sampledPulses (n : Nat) : ∀ i, sampleCount (sampledPulses i n) = n := by
  induction n with
  | zero => intro i; rfl
  | succ n ih => intro i; simp [sampledPulses, sampledPulse, pulse, sampleCount, ih]; omega

theorem risingEdges_pulses (n : Nat) (ck : Bool) : risingEdges ck (pulses n) = n := by
  simpa [risingEdges] using risingEdges_pulses_append n [] ck

/-- 134 rising edges of an INIT (R110). -/
theorem risingEdges_init : risingEdges false (prog .init) = 134 := by
  simp [prog, progInit, startPulse, risingEdges, risingEdges_pulses, Config.nSeq]

/-- 268 rising edges of a CAPTURE (R110, C3). -/
theorem risingEdges_capture : risingEdges false (prog .capture) = 268 := by
  simp [prog, progCapture, primePass, capturePass, startPulse, risingEdges, risingEdges_pulses,
    risingEdges_pulses_append, risingEdges_sampledPulses_append, Config.nDummy, Config.nPix, Config.nReset]

/-- An INIT takes no sample (R110). -/
theorem sampleCount_init : sampleCount (prog .init) = 0 := by
  simp [prog, progInit, sampleCount_pulses, startPulse, sampleCount]

/-- A CAPTURE takes 128 samples (R110). -/
theorem sampleCount_capture : sampleCount (prog .capture) = 128 := by
  simp [prog, progCapture, primePass, capturePass, sampleCount_append, sampleCount_pulses, sampleCount_sampledPulses,
    startPulse, sampleCount, Config.nPix]

/-! ## The segments by their index (R106, R107) -/

/-- Segment `k` of the INIT program (R106). -/
theorem prog_init_getElem? (k : Nat) : (prog .init)[k]? =
    if k < 268 then some (.hold (decide (k < 2)) (decide (k % 2 = 1)) .half) else none := by
  match k with
  | 0 => rfl
  | 1 => rfl
  | k + 2 =>
    have hlt : k + 2 < 268 ↔ k < 266 := by omega
    simp [prog, progInit, startPulse, pulses_getElem?, Config.nSeq, hlt]

theorem pulses_append_pulses (m n : Nat) : pulses m ++ pulses n = pulses (m + n) := by
  induction m with
  | zero => simp [pulses]
  | succ m ih => simp [pulses, ih, Nat.succ_add]

/-- The first pass of CAPTURE drives the lines as an INIT does (R107). -/
theorem primePass_eq_progInit : primePass = prog .init := by
  simp only [primePass, prog, progInit, List.append_assoc, pulses_append_pulses]; rfl

/-- Segment `269 + k` of the CAPTURE program (R107). -/
theorem capturePass_getElem? (k : Nat) : capturePass[k]? =
    if k < 6 then some (.hold (decide (k < 2)) (decide (k % 2 = 1)) .half)
    else if k < 390 then
      (if (k - 6) % 3 = 2 then some (.sample (Fin.ofNat 128 ((k - 6) / 3)))
        else some (.hold false (decide ((k - 6) % 3 = 1)) .half))
    else if k < 396 then some (.hold false (decide (k % 2 = 1)) .half)
    else none := by
  match k with
  | 0 => rfl
  | 1 => rfl
  | k + 2 =>
    simp only [capturePass, List.append_assoc, pulses_append_pulses, startPulse, List.cons_append, List.nil_append,
      List.getElem?_cons_succ, List.getElem?_append, pulses_length, sampledPulses_length, pulses_getElem?,
      sampledPulses_getElem?, Config.nDummy, Config.nPix, Config.nReset]
    split_ifs <;> (try simp) <;> omega

/-- Segment `k` of the CAPTURE program (R107): the first pass, the settle hold, the second pass. -/
theorem prog_capture_getElem? (k : Nat) : (prog .capture)[k]? =
    if k < 268 then (prog .init)[k]? else if k = 268 then some (.hold false true .settle) else capturePass[k - 269]? := by
  have hp : prog .capture = prog .init ++ ([.hold false true .settle] ++ capturePass) := by
    rw [← primePass_eq_progInit, ← List.append_assoc]; rfl
  rw [hp, List.getElem?_append, prog_init_length]
  split_ifs with h1 h2
  · rfl
  · subst k; rfl
  · rw [show k - 268 = k - 269 + 1 by omega, List.cons_append, List.getElem?_cons_succ, List.nil_append]

/-- The level of SI in segment `k` of a program: high in the START pulses, low elsewhere (R106, R107). -/
def siAt : Op → Nat → Bool
  | .none, _ => false
  | .init, k => decide (k < 2)
  | .capture, k => decide (k < 2 ∨ 269 ≤ k ∧ k < 271)

theorem siAt_of_hold {op : Op} {k : Nat} {si ck : Bool} {d : HoldTime}
    (h : (prog op)[k]? = some (.hold si ck d)) : siAt op k = si := by
  cases op with
  | none => simp at h
  | init => rw [prog_init_getElem?] at h; grind [siAt]
  | capture => rw [prog_capture_getElem?, prog_init_getElem?, capturePass_getElem?] at h; grind [siAt]

/-- Sample segments lie between segments with SI low (R107, R108). -/
theorem siAt_of_sample {op : Op} {k : Nat} {i : Pixel} (h : (prog op)[k + 1]? = some (.sample i)) :
    siAt op k = false ∧ siAt op (k + 1) = false := by
  cases op with
  | none => simp at h
  | init => rw [prog_init_getElem?] at h; grind
  | capture => rw [prog_capture_getElem?, prog_init_getElem?, capturePass_getElem?] at h; grind [siAt]

end Sys2Proof.Machine
end

section
/-!
PROOFS. The counts of a trace to the end of its sequence (R110), and the place of a sequence in its program.
-/

namespace Sys2Proof.Machine

/-- Falling edges of SI still to come in segment `k` of a program: one where SI is high, and one more before the second START
of a CAPTURE (R106, R107). -/
def siFallsLeft (op : Op) (k : Nat) : Nat :=
  (if siAt op k = true then 1 else 0) + if op = .capture ∧ k ≤ 268 then 1 else 0

theorem siFallsLeft_succ (op : Op) (k : Nat) : siFallsLeft op k =
    (if siAt op k = true ∧ siAt op (k + 1) = false then 1 else 0) + siFallsLeft op (k + 1) := by
  cases op <;> grind [siFallsLeft, siAt]

/-- SI is low in the last segment and stays low. -/
theorem siFallsLeft_last {op : Op} {k : Nat} (h : k + 1 = (prog op).length) : siFallsLeft op k = 0 := by
  cases op <;> grind [siFallsLeft, siAt, prog_none, prog_init_length, prog_capture_length]

theorem drop_of_getElem? {p : List Segment} {k : Nat} {g : Segment} (h : p[k]? = some g) :
    p.drop k = g :: p.drop (k + 1) := by
  obtain ⟨hlt, rfl⟩ := List.getElem?_eq_some_iff.mp h
  exact List.drop_eq_getElem_cons hlt

/-- The samples from segment `k` on: the one of segment `k`, and those after it. -/
theorem sampleCount_drop (p : List Segment) (k : Nat) :
    sampleCount (p.drop k) = (if isSample p[k]? = true then 1 else 0) + sampleCount (p.drop (k + 1)) := by
  rcases h : p[k]? with _ | (_ | _)
  · have hlen : p.length ≤ k := List.getElem?_eq_none_iff.mp h
    simp [isSample, sampleCount, List.drop_of_length_le hlen, List.drop_of_length_le (Nat.le_succ_of_le hlen)]
  · rw [drop_of_getElem? h]; simp [isSample, sampleCount]
  · rw [drop_of_getElem? h]; simp [isSample, sampleCount]

/-! ## The counts of a trace to its end (R110) -/

theorem Move.finish_of_idle {s t : State} (hm : Move s t) (ho : s.op ≠ .none) (ht : t.op = .none) :
    s.seg.toNat + 1 = (prog s.op).length ∧ adcStart s = false := by
  cases hm with
  | finish last noStart _ _ _ _ => exact ⟨last, noStart⟩
  | stay op | hold _ _ op | sample _ _ op => exact absurd (op.symm.trans ht) ho

/-- Rising edges of the sensor clock over a sequence to its end are those of the segments still to come. -/
theorem RunsFor.rises_sclk {n : Nat} {s : State} (h : RunsFor n s) : ∀ l,
    rises l ((trace n s).map (·.sclkO)) =
      (if l = false ∧ s.sclk = true then 1 else 0) + risingEdges s.sclk ((prog s.op).drop (s.seg.toNat + 1)) := by
  induction h with
  | last running next move done =>
    intro l
    have hlast := (move.finish_of_idle running done).1
    rw [trace_succ next]
    simp [rises, outputs, risingEdges, hlast]
  | @more n s t running next move same rest ih =>
    intro l
    have htail : rises s.sclk ((trace n t).map (·.sclkO)) =
        risingEdges s.sclk ((prog s.op).drop (s.seg.toNat + 1)) := by
      rw [ih s.sclk, same]
      cases move with
      | stay op seg si sclk risecnt sph => simp [seg, sclk]
      | hold next noStart op seg risecnt => rw [drop_of_getElem? next, seg]; rfl
      | sample next noStart op seg si sclk risecnt sph => simp [drop_of_getElem? next, seg, sclk, risingEdges]
      | finish last noStart op si sclk risecnt => exact absurd (same.symm.trans op) running
    rw [trace_succ next]
    exact congrArg (_ + ·) htail

/-- Falling edges of SI over a sequence to its end, where SI has the level of the current segment. -/
theorem RunsFor.falls_si {n : Nat} {s : State} (h : RunsFor n s) : s.si = siAt s.op s.seg.toNat → ∀ l,
    falls l ((trace n s).map (·.siO)) =
      (if l = true ∧ s.si = false then 1 else 0) + siFallsLeft s.op s.seg.toNat := by
  induction h with
  | last running next move done =>
    intro _ l
    rw [siFallsLeft_last (move.finish_of_idle running done).1, trace_succ next]
    simp [falls, outputs]
  | @more n s t running next move same rest ih =>
    intro hsi l
    have htail : falls s.si ((trace n t).map (·.siO)) = siFallsLeft s.op s.seg.toNat := by
      cases move with
      | stay op seg si sclk risecnt sph =>
        rw [ih (by rw [si, op, seg, hsi]) s.si, op, seg]
        simp [si]
      | hold next noStart op seg risecnt =>
        have ht : t.si = siAt s.op (s.seg.toNat + 1) := (siAt_of_hold next).symm
        rw [ih (by rw [op, seg, ht]) s.si, op, seg, ht, hsi, ← siFallsLeft_succ]
      | sample next noStart op seg si sclk risecnt sph =>
        obtain ⟨h0, h1⟩ := siAt_of_sample next
        have ht : t.si = siAt s.op (s.seg.toNat + 1) := by rw [si, hsi, h0, h1]
        rw [ih (by rw [op, seg, ht]) s.si, op, seg, ht, hsi, ← siFallsLeft_succ]
      | finish last noStart op si sclk risecnt => exact absurd (same.symm.trans op) running
    rw [trace_succ next]
    exact congrArg (_ + ·) htail

/-- A request shown and not yet answered. -/
def waiting (s : State) : Nat := if adcBusy s = true ∧ s.sph = .wait then 1 else 0

/-- Where no request is shown, the samples still to be requested lie after the current segment. -/
theorem waiting_add_sampleCount {s : State} (ho : s.op ≠ .none) (h : adcStart s = false) :
    waiting s + sampleCount ((prog s.op).drop (s.seg.toNat + 1)) = sampleCount ((prog s.op).drop s.seg.toNat) := by
  have hhere : waiting s = if isSample (currentSegment s) = true then 1 else 0 := by
    cases hs : s.sph <;> simp_all [waiting, adcStart, adcBusy, busy]
  rw [sampleCount_drop _ s.seg.toNat, hhere]; rfl

/-- Requests over a sequence to its end: one for each sample segment from the current one on, but for a request already shown. -/
theorem RunsFor.countP_adcStart {n : Nat} {s : State} (h : RunsFor n s) :
    (trace n s).countP (·.adcStartO) + waiting s = sampleCount ((prog s.op).drop s.seg.toNat) := by
  induction h with
  | last running next move done =>
    obtain ⟨hlast, hno⟩ := move.finish_of_idle running done
    rw [← waiting_add_sampleCount running hno, trace_succ next, hlast]
    simp [outputs, hno, sampleCount]
  | @more n s t running next move same rest ih =>
    rw [trace_succ next, List.countP_cons]
    cases move with
    | stay op seg si sclk risecnt sph =>
      have hbusy : adcBusy t = adcBusy s := by simp [adcBusy, busy, currentSegment, op, seg]
      rw [op, seg] at ih
      rw [← ih]
      cases hst : adcStart s <;> simp_all [waiting, outputs, adcStart]
    | hold next noStart op seg risecnt =>
      have ht : waiting t = 0 := by simp [waiting, adcBusy, currentSegment, op, seg, next, isSample]
      rw [op, seg, ht] at ih
      rw [← waiting_add_sampleCount running noStart, ← ih]
      simp [outputs, noStart, Nat.add_comm]
    | sample next noStart op seg si sclk risecnt sph =>
      have ht : waiting t = 0 := by simp [waiting, sph]
      rw [op, seg, ht] at ih
      rw [← waiting_add_sampleCount running noStart, ← ih]
      simp [outputs, noStart, Nat.add_comm]
    | finish last noStart op si sclk risecnt => exact absurd (same.symm.trans op) running

/-- A sequence is busy in every cycle to its end. -/
theorem RunsFor.countP_busy {n : Nat} {s : State} (h : RunsFor n s) : (trace n s).countP (·.busyO) = n := by
  induction h with
  | last running next move done => simp [trace_succ next, outputs, busy, running]
  | more running next move same rest ih => simp [trace_succ next, outputs, busy, running, ih]

/-! ## The place of a sequence in its program -/

/-- Every program begins with START (R106, R107). -/
theorem prog_head {op : Op} (h : op ≠ .none) : (prog op)[0]? = some (.hold true false .half) := by
  cases op with
  | none => exact absurd rfl h
  | init => rfl
  | capture => rfl

/-- SI after the segments up to `k` has the level of segment `k`. -/
theorem linesAfter_take_si {op : Op} : ∀ {k : Nat}, k < (prog op).length →
    (linesAfter (false, false) ((prog op).take (k + 1))).1 = siAt op k := by
  intro k
  induction k with
  | zero =>
    intro hk
    have hop : op ≠ .none := fun h => by simp [h] at hk
    rw [siAt_of_hold (prog_head hop), List.take_add_one, prog_head hop]; rfl
  | succ k ih =>
    intro hk
    rw [List.take_add_one, linesAfter_append]
    rcases hg : (prog op)[k + 1]? with _ | (⟨si, ck, d⟩ | i)
    · rw [List.getElem?_eq_none_iff] at hg; omega
    · exact (siAt_of_hold hg).symm
    · obtain ⟨h0, h1⟩ := siAt_of_sample hg
      exact (ih (by omega)).trans (h0.trans h1.symm)

/-- The lines and the counts of a running sequence fit its place in the program (R31, R37, R38). -/
structure OnTrack (s : State) : Prop where
  lines : s.si = siAt s.op s.seg.toNat
  rises : s.risecnt.toNat + risingEdges s.sclk ((prog s.op).drop (s.seg.toNat + 1)) = risingEdges false (prog s.op)
  samples : s.sampcnt.toNat + sampleCount ((prog s.op).drop s.seg.toNat) = sampleCount (prog s.op)

/-- A legal running sequence is on track, whatever inputs are laid out. -/
theorem Legal.onTrack {s : State} (h : Legal s) (ho : s.op ≠ .none) (ins : List CycleInput) :
    OnTrack { s with stim := ins } where
  lines := (congrArg Prod.fst (h.lines ho)).trans (linesAfter_take_si (h.busySeg ho))
  rises := by
    have hck : s.sclk = (linesAfter (false, false) ((prog s.op).take (s.seg.toNat + 1))).2 :=
      congrArg Prod.snd (h.lines ho)
    have hsum := risingEdges_append ((prog s.op).take (s.seg.toNat + 1)) ((prog s.op).drop (s.seg.toNat + 1)) false false
    rw [List.take_append_drop, ← hck, ← h.riseCount ho] at hsum
    exact hsum.symm
  samples := by
    have hsum := sampleCount_append ((prog s.op).take s.seg.toNat) ((prog s.op).drop s.seg.toNat)
    rw [List.take_append_drop, ← h.sampleCounted ho] at hsum
    exact hsum.symm

/-- Rising edges still to come and those counted make up the program's (R37, R110). -/
theorem OnTrack.rises_total {n : Nat} {s : State} (ht : OnTrack s) (h : RunsFor n s) (l : Bool) :
    Machine.rises l ((trace n s).map (·.sclkO)) + s.risecnt.toNat =
      (if l = false ∧ s.sclk = true then 1 else 0) + risingEdges false (prog s.op) := by
  rw [h.rises_sclk, ← ht.rises]; omega

/-- Requests still to come, the one waiting and those answered make up the program's samples (R38, R110). -/
theorem OnTrack.requests_total {n : Nat} {s : State} (ht : OnTrack s) (h : RunsFor n s) :
    (trace n s).countP (·.adcStartO) + s.sampcnt.toNat + waiting s = sampleCount (prog s.op) := by
  rw [← ht.samples, ← h.countP_adcStart]; omega

/-! ## Acceptance -/

/-- What an accepted command leaves (R112, R94). -/
theorem accept_eq {op : Op} (ho : op ≠ .none) (s : State) : accept op s = { s with
    op := op, seg := 0, si := true, sclk := false, risecnt := 0, sampcnt := 0,
    tcnt := BitVec.ofNat 32 (halfcyc s.par s.freq.toNat - 1),
    fvalid := if op = .capture then false else s.fvalid,
    fnoinit := if op = .capture then !s.initd else s.fnoinit } := by
  rw [accept, load_hold (prog_head ho)]
  simp [dur]

/-- The state after the cycle that accepts `op`. -/
def accepted (op : Op) (s : State) : State := elapse (accept op (driveRdata 0 s))

/-- An idle block that is presented a command accepts it (R112). -/
theorem step_accepts {op : Op} {s : State} {first : CycleInput} {ins : List CycleInput} {u : Txn} (ho : s.op = .none)
    (hr : first.rst = false) (hh : first.host = .txn u) (hd : ∀ a, exec (decode u.word) a = .next (command op a)) :
    step { s with stim := first :: ins } = .next (accepted op { s with stim := first :: ins }) := by
  have hb : busy { s with stim := first :: ins } = false := by simp [busy, ho]
  have hpart : hostPart first.host { s with stim := first :: ins } =
      .next (accept op (driveRdata 0 { s with stim := first :: ins })) := by
    rw [hh, ← command_idle (by simpa using ho), ← hd]; rfl
  rw [step, show nextInput { s with stim := first :: ins } = first from rfl, runCycle_work hr, hpart, hb]
  rfl

theorem accepted_eq {op : Op} (ho : op ≠ .none) (s : State) : accepted op s = { s with
    op := op, seg := 0, si := true, sclk := false, risecnt := 0, sampcnt := 0,
    tcnt := BitVec.ofNat 32 (halfcyc s.par s.freq.toNat - 1),
    fvalid := if op = .capture then false else s.fvalid,
    fnoinit := if op = .capture then !s.initd else s.fnoinit,
    hRdata := 0, stim := s.stim.tail, cycle := s.cycle + 1 } := by
  rw [accepted, accept_eq ho]; rfl

/-- An accepted sequence is on track. -/
theorem accepted_onTrack {op : Op} (ho : op ≠ .none) (s : State) : OnTrack (accepted op s) := by
  rw [accepted_eq ho]
  refine ⟨(siAt_of_hold (prog_head ho)).symm, ?_, by simp⟩
  have hstart : prog op = .hold true false .half :: (prog op).drop 1 := drop_of_getElem? (prog_head ho)
  have hedges : risingEdges false (prog op) = risingEdges false ((prog op).drop 1) := by
    rw [hstart]; simp [risingEdges]
  simpa using hedges.symm


end Sys2Proof.Machine
end

section
/-!
PROOFS. The duration of a calm sequence with an ADC that answers at once (R159, R160), and the counts of INIT and CAPTURE.
-/

namespace Sys2Proof.Machine

/-! ## The duration of a calm sequence (R159, R160) -/

/-- How many cycles a segment lasts, with an ADC latency of 1 (R90, R154). -/
def segCycles (p : Config.Params) (f : Nat) : Segment → Nat
  | .hold _ _ d => dur p d f
  | .sample _ => 2

/-- How many cycles segments last one after another. -/
def listCycles (p : Config.Params) (f : Nat) (l : List Segment) : Nat := (l.map (segCycles p f)).sum

/-- How many cycles the current segment still lasts, this one included. -/
def segCyclesLeft (s : State) : Nat :=
  if isSample (currentSegment s) = true then (if s.sph = .req then 2 else 1) else s.tcnt.toNat + 1

/-- How many cycles the segments after the current one last. -/
def cyclesAfter (s : State) : Nat := listCycles s.par s.freq.toNat ((prog s.op).drop (s.seg.toNat + 1))

/-- How many cycles the running sequence still lasts, this one included. -/
def cyclesLeft (s : State) : Nat := segCyclesLeft s + cyclesAfter s

theorem segCyclesLeft_hold {s : State} {si ck : Bool} {d : HoldTime} (h : currentSegment s = some (.hold si ck d)) :
    segCyclesLeft s = s.tcnt.toNat + 1 := by
  simp [segCyclesLeft, h, isSample]

theorem segCyclesLeft_req {s : State} {i : Pixel} (h : currentSegment s = some (.sample i)) (hs : s.sph = .req) :
    segCyclesLeft s = 2 := by
  simp [segCyclesLeft, h, isSample, hs]

theorem segCyclesLeft_wait {s : State} {i : Pixel} (h : currentSegment s = some (.sample i)) (hs : s.sph = .wait) :
    segCyclesLeft s = 1 := by
  simp [segCyclesLeft, h, isSample, hs]

/-- The segments to come, where one follows. -/
theorem cyclesAfter_of_next {s : State} {g : Segment} (h : (prog s.op)[s.seg.toNat + 1]? = some g) :
    cyclesAfter s = segCycles s.par s.freq.toNat g +
      listCycles s.par s.freq.toNat ((prog s.op).drop (s.seg.toNat + 2)) := by
  rw [cyclesAfter, drop_of_getElem? h]; rfl

theorem listCycles_cons (p : Config.Params) (f : Nat) (g : Segment) (l : List Segment) :
    listCycles p f (g :: l) = segCycles p f g + listCycles p f l := rfl

theorem listCycles_singleton (p : Config.Params) (f : Nat) (g : Segment) : listCycles p f [g] = segCycles p f g := by
  simp [listCycles]

theorem listCycles_append (p : Config.Params) (f : Nat) (a b : List Segment) :
    listCycles p f (a ++ b) = listCycles p f a + listCycles p f b := by
  simp [listCycles]

theorem listCycles_pulses (p : Config.Params) (f n : Nat) : listCycles p f (pulses n) = 2 * n * halfcyc p f := by
  induction n with
  | zero => simp [pulses, listCycles]
  | succ n ih => rw [pulses, listCycles_append, ih]; simp [pulse, listCycles, segCycles, dur]; ring

theorem listCycles_sampledPulses (p : Config.Params) (f n : Nat) : ∀ i,
    listCycles p f (sampledPulses i n) = 2 * n * halfcyc p f + 2 * n := by
  induction n with
  | zero => intro i; simp [sampledPulses, listCycles]
  | succ n ih =>
    intro i
    rw [sampledPulses, listCycles_append, ih]
    simp [sampledPulse, pulse, listCycles, segCycles, dur]; ring

theorem listCycles_startPulse (p : Config.Params) (f : Nat) : listCycles p f startPulse = 2 * halfcyc p f := by
  simp [startPulse, listCycles, segCycles, dur]; ring

/-- An INIT lasts 268 half periods (R159). -/
theorem listCycles_init (p : Config.Params) (f : Nat) : listCycles p f (prog .init) = 268 * halfcyc p f := by
  rw [prog, progInit, listCycles_append, listCycles_startPulse, listCycles_pulses]
  simp only [Config.nSeq]; omega

/-- A CAPTURE lasts 536 half periods, the settle delay and two cycles for each sample (R160). -/
theorem listCycles_capture (p : Config.Params) (f : Nat) :
    listCycles p f (prog .capture) = 536 * halfcyc p f + settlecyc p + 256 := by
  have hsettle : listCycles p f [.hold false true .settle] = settlecyc p := listCycles_singleton p f _
  simp only [prog, progCapture, primePass, capturePass, listCycles_append, listCycles_startPulse, listCycles_pulses,
    listCycles_sampledPulses, hsettle, Config.nDummy, Config.nPix, Config.nReset]
  omega

/-- The timer holds every duration of a legal frequency, counted from 0 (R29, R94). -/
theorem timer_toNat_succ {p : Config.Params} {f : Nat} (hp : p.wf) (hf : 1 ≤ f ∧ f ≤ 500000) (d : HoldTime) :
    (BitVec.ofNat 32 (dur p d f - 1)).toNat + 1 = dur p d f := by
  have hrange : 1 ≤ dur p d f ∧ dur p d f ≤ 2147483648 := by
    cases d with
    | half => exact halfcyc_range hp hf.1 hf.2
    | settle => have h := (settlecyc_range hp).2; simp only [dur]; omega
  simp only [BitVec.toNat_ofNat]
  omega

/-- After `advance` the sequence has ended with nothing to come, or what is left is all the segments that were to come. -/
theorem advance_cyclesLeft {s : State} {g : Segment} (hc : currentSegment s = some g) (hp : s.par.wf)
    (hf : 1 ≤ s.freq.toNat ∧ s.freq.toNat ≤ 500000) :
    ((advance s).op = .none ∧ cyclesAfter s = 0) ∨
    ((advance s).op = s.op ∧ (∃ g', currentSegment (advance s) = some g') ∧ cyclesLeft (advance s) = cyclesAfter s) := by
  rcases advance_cases hc with ⟨hlast, e⟩ | ⟨si, ck, d, hn, e⟩ | ⟨i, hn, e⟩
  · left; simp [e, hlast, cyclesAfter, listCycles]
  · right
    have hcur : currentSegment (advance s) = some (.hold si ck d) := by
      rw [e]; simp only [currentSegment, segIndex_toNat hn, hn]
    refine ⟨by rw [e], ⟨_, hcur⟩, ?_⟩
    rw [cyclesLeft, segCyclesLeft_hold hcur, cyclesAfter_of_next hn, cyclesAfter, e]
    simp only [segIndex_toNat hn, timer_toNat_succ hp hf, segCycles]
  · right
    have hcur : currentSegment (advance s) = some (.sample i) := by
      rw [e]; simp only [currentSegment, segIndex_toNat hn, hn]
    refine ⟨by rw [e], ⟨_, hcur⟩, ?_⟩
    rw [cyclesLeft, segCyclesLeft_req hcur (by rw [e]), cyclesAfter_of_next hn, cyclesAfter, e]
    simp only [segIndex_toNat hn, segCycles]

/-- Only a CAPTURE has sample segments (R108). -/
theorem op_of_sample {s : State} {i : Pixel} (h : currentSegment s = some (.sample i)) : s.op = .capture := by
  unfold currentSegment at h
  cases ho : s.op with
  | none => simp [ho] at h
  | init => rw [ho, prog_init_getElem?] at h; grind
  | capture => rfl

/-- The sequencer's part leaves the parameters and FREQ (R103). -/
theorem sequencer_par_freq {done : Bool} {data : Word} {s u : State} (h : sequencer done data s = .next u) :
    u.par = s.par ∧ u.freq = s.freq := by
  rcases sequencer_cases h with ⟨_, _, _, _, _, rfl⟩ | ⟨_, _, _, _, _, rfl⟩ | ⟨_, _, _, rfl⟩ | ⟨_, _, _, _, rfl⟩ |
    ⟨_, _, _, _, rfl⟩ <;> simp

/-- With an ADC that answers at once, the sequencer's part takes one of the cycles left: the last one, or another. -/
theorem sequencer_cyclesLeft {done : Bool} {data : Word} {s u : State} (h : sequencer done data s = .next u)
    (hd : s.op = .capture → done = true) (hp : s.par.wf) (hf : 1 ≤ s.freq.toNat ∧ s.freq.toNat ≤ 500000) :
    (u.op = .none ∧ cyclesLeft s = 1) ∨
    (u.op = s.op ∧ (∃ g, currentSegment u = some g) ∧ cyclesLeft s = cyclesLeft u + 1) := by
  rcases sequencer_cases h with ⟨si, ck, d, hc, ht, rfl⟩ | ⟨si, ck, d, hc, ht, rfl⟩ | ⟨i, hc, hs, rfl⟩ |
    ⟨i, hc, hs, -, rfl⟩ | ⟨i, hc, -, hdone, -⟩
  · have hafter : cyclesAfter { s with tcnt := s.tcnt - 1 } = cyclesAfter s := rfl
    have htcnt : (s.tcnt - 1).toNat + 1 = s.tcnt.toNat := by bv_omega
    have hhere : segCyclesLeft { s with tcnt := s.tcnt - 1 } = (s.tcnt - 1).toNat + 1 := segCyclesLeft_hold hc
    refine .inr ⟨rfl, ⟨_, hc⟩, ?_⟩
    rw [cyclesLeft, cyclesLeft, segCyclesLeft_hold hc, hhere, hafter, htcnt]
    omega
  · have hleft : cyclesLeft s = 1 + cyclesAfter s := by rw [cyclesLeft, segCyclesLeft_hold hc, ht]
    rcases advance_cyclesLeft hc hp hf with ⟨ho, hz⟩ | ⟨ho, hg, hl⟩
    · exact .inl ⟨ho, by omega⟩
    · exact .inr ⟨ho, hg, by omega⟩
  · have hafter : cyclesAfter { s with sph := .wait } = cyclesAfter s := rfl
    have hhere : segCyclesLeft { s with sph := .wait } = 1 := segCyclesLeft_wait hc rfl
    refine .inr ⟨rfl, ⟨_, hc⟩, ?_⟩
    rw [cyclesLeft, cyclesLeft, segCyclesLeft_req hc hs, hhere, hafter]
    omega
  · have hafter : cyclesAfter (storeSample i data s) = cyclesAfter s := rfl
    have hleft : cyclesLeft s = 1 + cyclesAfter s := by rw [cyclesLeft, segCyclesLeft_wait hc hs]
    rcases advance_cyclesLeft (s := storeSample i data s) hc hp hf with ⟨ho, hz⟩ | ⟨ho, hg, hl⟩
    · exact .inl ⟨ho, by omega⟩
    · exact .inr ⟨ho, hg, by omega⟩
  · rw [hd (op_of_sample hc)] at hdone; cases hdone

/-- A calm sequence with an ADC that answers at once lasts exactly the cycles left. -/
theorem lasts_of_calm {op : Op} (hop : op ≠ .none) : ∀ {ins : List CycleInput} {s : State}, s.stim = ins → s.op = op →
    (∃ g, currentSegment s = some g) → s.par.wf → 1 ≤ s.freq.toNat ∧ s.freq.toNat ≤ 500000 →
    (∀ inp ∈ ins, calm inp = true ∧ (op = .capture → inp.adcDone = true)) → ins.length = cyclesLeft s →
    lasts op ins.length s = true := by
  intro ins
  induction ins with
  | nil =>
    intro s _ _ _ _ _ _ hlen
    have hpos : 0 < segCyclesLeft s := by unfold segCyclesLeft; split_ifs <;> omega
    simp only [List.length_nil, cyclesLeft] at hlen
    omega
  | cons inp rest ih =>
    intro s hs ho ⟨g, hg⟩ hp hf hin hlen
    obtain ⟨hcalm, hdone⟩ := hin inp List.mem_cons_self
    obtain ⟨u, hu⟩ := sequencer_total (done := inp.adcDone) (data := inp.adcData) hg
    obtain ⟨e, ov, c, v, hst⟩ := step_calm (ho ▸ hop) hs hcalm hu
    obtain ⟨hpar, hfreq⟩ := sequencer_par_freq hu
    refine lasts_succ.mpr ⟨ho, _, hst, ?_⟩
    rcases sequencer_cyclesLeft hu (fun h => hdone (ho ▸ h)) hp hf with ⟨hend, hone⟩ | ⟨hsame, hcur, hmore⟩
    · have hnil : rest = [] := List.length_eq_zero_iff.mp (by simp only [List.length_cons] at hlen; omega)
      subst hnil
      exact (lasts_zero _ _).mpr hend
    · refine ih rfl (hsame.trans ho) hcur (hpar ▸ hp) (hfreq ▸ hf) (fun i hi => hin i (List.mem_cons_of_mem _ hi)) ?_
      have hlen' : rest.length = cyclesLeft u := by simp only [List.length_cons] at hlen; omega
      exact hlen'

/-- An accepted sequence is in its first segment. -/
theorem currentSegment_accepted {op : Op} (hop : op ≠ .none) (s : State) :
    currentSegment (accepted op s) = some (.hold true false .half) := by
  rw [accepted_eq hop]; exact prog_head hop

/-- An accepted sequence has all the cycles of its program before it. -/
theorem cyclesLeft_accepted {op : Op} (hop : op ≠ .none) {s : State} (hp : s.par.wf)
    (hf : 1 ≤ s.freq.toNat ∧ s.freq.toNat ≤ 500000) :
    cyclesLeft (accepted op s) = listCycles s.par s.freq.toNat (prog op) := by
  have hstart : prog op = .hold true false .half :: (prog op).drop 1 := drop_of_getElem? (prog_head hop)
  have hafter : cyclesAfter (accepted op s) = listCycles s.par s.freq.toNat ((prog op).drop 1) := by
    rw [accepted_eq hop]; rfl
  have hhere : segCyclesLeft (accepted op s) = halfcyc s.par s.freq.toNat := by
    rw [segCyclesLeft_hold (currentSegment_accepted hop s), accepted_eq hop]
    exact timer_toNat_succ hp hf .half
  rw [hstart, listCycles_cons, cyclesLeft, hhere, hafter]; rfl

/-- An accepted calm sequence with an ADC that answers at once runs for the cycles of its program. -/
theorem accepted_runsFor {op : Op} (hop : op ≠ .none) {s : State} {ins : List CycleInput} (hs : s.stim.tail = ins)
    (hp : s.par.wf) (hf : 1 ≤ s.freq.toNat ∧ s.freq.toNat ≤ 500000)
    (hin : ∀ inp ∈ ins, calm inp = true ∧ (op = .capture → inp.adcDone = true))
    (hlen : ins.length = listCycles s.par s.freq.toNat (prog op)) : RunsFor ins.length (accepted op s) := by
  have heq := accepted_eq hop s
  have hstim : (accepted op s).stim = ins := by rw [heq]; exact hs
  have hsame : (accepted op s).op = op := by rw [heq]
  have hpar : (accepted op s).par = s.par := by rw [heq]
  have hfreq : (accepted op s).freq = s.freq := by rw [heq]
  have hreset : ∀ inp ∈ ins, inp.rst = false := fun inp hi => by
    have hcalm := (hin inp hi).1
    simp only [calm, Bool.and_eq_true, Bool.not_eq_true'] at hcalm
    exact hcalm.1
  exact runsFor_of_lasts hop hstim hreset
    (lasts_of_calm hop hstim hsame ⟨_, currentSegment_accepted hop s⟩ (hpar ▸ hp) (hfreq ▸ hf) hin
      (hlen.trans (cyclesLeft_accepted hop hp hf).symm)) hsame

/-! ## INIT and CAPTURE -/

/-- The counts of the trace from a legal cycle of a sequence to its last: with those so far they are the program's. -/
theorem Legal.trace_counts {s : State} {ins : List CycleInput} (hl : Legal s) (ho : s.op ≠ .none)
    (hr : ∀ inp ∈ ins, inp.rst = false) (hlast : lasts s.op ins.length { s with stim := ins } = true)
    {tr : List Outputs} (htr : tr = trace ins.length { s with stim := ins }) :
    Machine.rises s.sclk (tr.map (·.sclkO)) + s.risecnt.toNat = risingEdges false (prog s.op) ∧
    falls s.si (tr.map (·.siO)) =
      (if s.si = true then 1 else 0) + (if s.op = .capture ∧ s.seg.toNat ≤ 268 then 1 else 0) ∧
    tr.countP (·.adcStartO) + s.sampcnt.toNat + waiting s = sampleCount (prog s.op) ∧
    tr.countP (·.busyO) = ins.length := by
  subst htr
  have hrun : RunsFor ins.length { s with stim := ins } := runsFor_of_lasts ho rfl hr hlast rfl
  have htrack := hl.onTrack ho ins
  have hsi : s.si = siAt s.op s.seg.toNat := htrack.lines
  refine ⟨?_, ?_, htrack.requests_total hrun, hrun.countP_busy⟩
  · simpa using htrack.rises_total hrun s.sclk
  · rw [hrun.falls_si hsi s.si, siFallsLeft, ← hsi]
    simp

/-- The counts of the trace of a whole sequence, from the cycle that accepts it: those of its program. -/
theorem trace_counts_of_accepts {op : Op} (hop : op ≠ .none) {n : Nat} {s : State} (ho : s.op = .none)
    (hstep : step s = .next (accepted op s)) (hrun : RunsFor n (accepted op s)) {tr : List Outputs}
    (htr : tr = trace (1 + n) s) :
    rises s.sclk (tr.map (·.sclkO)) = risingEdges false (prog op) ∧
    falls s.si (tr.map (·.siO)) = siFallsLeft op 0 ∧
    tr.countP (·.adcStartO) = sampleCount (prog op) ∧ tr.countP (·.busyO) = n := by
  have htrack := accepted_onTrack hop s
  have heq := accepted_eq hop s
  have hwait : waiting (accepted op s) = 0 := by simp [waiting, adcBusy, currentSegment_accepted hop s, isSample]
  have hrise := htrack.rises_total hrun s.sclk
  have hfall := hrun.falls_si htrack.lines s.si
  have hreq := htrack.requests_total hrun
  rw [hwait, heq] at hreq
  subst htr
  rw [Nat.add_comm, trace_succ hstep]
  refine ⟨?_, ?_, ?_, ?_⟩
  · simpa [rises, outputs, heq] using hrise
  · simpa [falls, outputs, heq] using hfall
  · simpa [outputs, adcStart, adcBusy, busy, ho, heq] using hreq
  · simpa [outputs, busy, ho] using hrun.countP_busy

/-- A legal idle block that is presented a command accepts it and runs it to its end in the cycles of its program, where the
following inputs are calm and the ADC answers at once. -/
theorem Legal.trace_counts_of_command {op : Op} (hop : op ≠ .none) {s : State} {first : CycleInput}
    {ins : List CycleInput} {u : Txn} (hl : Legal s) (ho : s.op = .none) (hr : first.rst = false)
    (hh : first.host = .txn u) (hd : ∀ a, exec (decode u.word) a = .next (command op a))
    (hin : ∀ inp ∈ ins, calm inp = true ∧ (op = .capture → inp.adcDone = true))
    (hlen : ins.length = listCycles s.par s.freq.toNat (prog op)) {tr : List Outputs}
    (htr : tr = trace (1 + ins.length) { s with stim := first :: ins }) :
    Machine.rises s.sclk (tr.map (·.sclkO)) = risingEdges false (prog op) ∧
    falls s.si (tr.map (·.siO)) = siFallsLeft op 0 ∧
    tr.countP (·.adcStartO) = sampleCount (prog op) ∧ tr.countP (·.busyO) = ins.length :=
  trace_counts_of_accepts (s := { s with stim := first :: ins }) hop ho (step_accepts ho hr hh hd)
    (accepted_runsFor hop rfl hl.params hl.freqLegal hin hlen) htr

/-- Settles O58: the program of INIT has 134 rising edges, one START and no sample, and lasts 268 half periods. -/
theorem initTraceCounts : Obligations.InitTraceCounts := by
  unfold Obligations.InitTraceCounts
  constructor
  · intro s ins hl ho hr hlast tr htr
    obtain ⟨hrise, hfall, hreq, hbusy⟩ := hl.trace_counts (by simp [ho]) hr (ho ▸ hlast) htr
    rw [ho, risingEdges_init] at hrise
    rw [ho, sampleCount_init] at hreq
    exact ⟨hrise, by simpa [ho] using hfall, by omega, hbusy⟩
  · intro s first ins hl ho hr hh hcalm hlen tr htr
    obtain ⟨hrise, hfall, hreq, hbusy⟩ := hl.trace_counts_of_command (op := .init) (by decide) ho hr hh (fun _ => rfl)
      (fun inp hi => ⟨hcalm inp hi, by simp⟩) (hlen.trans (listCycles_init _ _).symm) htr
    exact ⟨hrise.trans risingEdges_init, hfall, hreq.trans sampleCount_init, hbusy.trans hlen⟩

/-- Settles O59: the program of CAPTURE has 268 rising edges, two STARTs and 128 samples, and lasts 536 half periods, the settle
delay and two cycles for each sample. -/
theorem captureTraceCounts : Obligations.CaptureTraceCounts := by
  unfold Obligations.CaptureTraceCounts
  constructor
  · intro s ins hl ho hr hlast tr htr
    obtain ⟨hrise, hfall, hreq, hbusy⟩ := hl.trace_counts (by simp [ho]) hr (ho ▸ hlast) htr
    rw [ho, risingEdges_capture] at hrise
    rw [ho, sampleCount_capture] at hreq
    exact ⟨hrise, by simpa [ho] using hfall, hreq, hbusy⟩
  · intro s first ins hl ho hr hh hcalm hlen tr htr
    obtain ⟨hrise, hfall, hreq, hbusy⟩ := hl.trace_counts_of_command (op := .capture) (by decide) ho hr hh (fun _ => rfl)
      (fun inp hi => ⟨(hcalm inp hi).1, fun _ => (hcalm inp hi).2⟩) (hlen.trans (listCycles_capture _ _).symm) htr
    exact ⟨hrise.trans risingEdges_capture, hfall, hreq.trans sampleCount_capture, hbusy.trans hlen⟩

end Sys2Proof.Machine
end

section
/-!
PROOFS. What each part of a cycle can do, said once: the host's part and the sequencer's part, idle or running (R102..R104), and
where the sample segments lie (R108).
-/

namespace Sys2Proof.Machine

/-! ## The parts of a cycle -/

/-- Everything a step that completes can be: a reset; the host's part alone, where the block is idle; the host's part and the
sequencer's, where a sequence runs. -/
theorem step_cases {s t : State} (h : step s = .next t) :
    ((nextInput s).rst = true ∧ t = elapse (resetCycle s)) ∨
    ((nextInput s).rst = false ∧ s.op = .none ∧ ∃ a, hostPart (nextInput s).host s = .next a ∧ t = elapse a) ∨
    ((nextInput s).rst = false ∧ s.op ≠ .none ∧ ∃ a b, hostPart (nextInput s).host s = .next a ∧
      sequencer (nextInput s).adcDone (nextInput s).adcData a = .next b ∧ t = elapse b) := by
  rcases runCycle_cases h with hreset | ⟨hr, a, b, ha, hb, rfl⟩
  · exact .inl hreset
  · by_cases ho : s.op = .none
    · have hidle : busy s = false := by simp [busy, ho]
      rw [hidle, sequencerPart_idle] at hb
      injection hb with hb
      exact .inr (.inl ⟨hr, ho, a, ha, by rw [hb]⟩)
    · rw [(busy_iff s).mpr ho, sequencerPart_busy] at hb
      exact .inr (.inr ⟨hr, ho, a, b, ha, hb, rfl⟩)

/-- Everything the host's part of a cycle can do: read data alone, errors cleared or recorded, a command accepted by an idle
block, or FREQ written by a write to FREQ. -/
theorem hostPart_effects {h : HostLane} {s a : State} (hh : hostPart h s = .next a) :
    (∃ v, a = driveRdata v s) ∨ a = clearErrors (driveRdata 0 s) ∨
    (∃ c, c ≠ .none ∧ a = raiseHostError c (driveRdata 0 s)) ∨
    (∃ op, op ≠ .none ∧ s.op = .none ∧ a = accept op (driveRdata 0 s)) ∨
    (∃ u d, presented h = .next (some u) ∧ u.we = true ∧ u.wa = 1 ∧ a = writeFreq d (driveRdata 0 s)) := by
  rcases hostPart_cases hh with ⟨-, rfl⟩ | ⟨u, hu, he⟩
  · exact .inl ⟨0, rfl⟩
  · obtain ⟨b, hb, hcases⟩ := exec_cases (decode u.word) (driveRdata 0 s)
    rw [hb] at he
    injection he with he
    subst he
    rcases hcases with rfl | ⟨op, hop, rfl⟩ | ⟨-, rfl⟩ | ⟨d, hd, rfl⟩ | ⟨c, hc, rfl⟩ | ⟨v, -, rfl⟩
    · exact .inl ⟨0, rfl⟩
    · by_cases ho : s.op = .none
      · have hne : op ≠ .none := by rcases hop with ⟨-, rfl⟩ | ⟨-, rfl⟩ <;> decide
        exact .inr (.inr (.inr (.inl ⟨op, hne, ho, command_idle (by simpa using ho)⟩)))
      · exact .inr (.inr (.inl ⟨.cmdBusy, by decide, command_busy (by simpa using ho)⟩))
    · exact .inr (.inl rfl)
    · obtain ⟨hwe, hwa⟩ := decode_eq_setclk hd
      exact .inr (.inr (.inr (.inr ⟨u, d, hu, by simpa using hwe, by simpa using hwa, rfl⟩)))
    · exact .inr (.inr (.inl ⟨c, hc, rfl⟩))
    · exact .inl ⟨v, rfl⟩

/-- The host's part never writes INITD, FRAME or the parameters (R25, R32, R53). -/
theorem hostPart_keeps {h : HostLane} {s a : State} (hh : hostPart h s = .next a) :
    a.initd = s.initd ∧ a.frame = s.frame ∧ a.par = s.par := by
  rcases hostPart_effects hh with ⟨v, rfl⟩ | rfl | ⟨c, -, rfl⟩ | ⟨op, hop, -, rfl⟩ | ⟨u, d, -, -, -, rfl⟩
  · simp
  · simp
  · simp
  · simp [accept_eq hop]
  · simp

/-- The host's part changes FREQ only by a write to FREQ (R36, R115). -/
theorem hostPart_freq {h : HostLane} {s a : State} (hh : hostPart h s = .next a) :
    a.freq = s.freq ∨ ∃ u, presented h = .next (some u) ∧ u.we = true ∧ u.wa = 1 := by
  rcases hostPart_effects hh with ⟨v, rfl⟩ | rfl | ⟨c, -, rfl⟩ | ⟨op, hop, -, rfl⟩ | ⟨u, d, hu, hwe, hwa, -⟩
  · exact .inl rfl
  · exact .inl rfl
  · exact .inl (by simp)
  · exact .inl (by simp [accept_eq hop])
  · exact .inr ⟨u, hu, hwe, hwa⟩

/-- `advance` goes on to the next segment, or ends the sequence after its last (R98, R99). -/
theorem advance_place {s : State} {g : Segment} (h : currentSegment s = some g) :
    ((advance s).op = s.op ∧ (advance s).seg.toNat = s.seg.toNat + 1 ∧ (advance s).initd = s.initd) ∨
    (s.seg.toNat + 1 = (prog s.op).length ∧ advance s = finish s) := by
  rcases advance_cases h with hlast | ⟨si, ck, d, hn, e⟩ | ⟨i, hn, e⟩
  · exact .inr hlast
  · exact .inl (by simp only [e, segIndex_toNat hn, and_self])
  · exact .inl (by simp only [e, segIndex_toNat hn, and_self])

/-- The sequencer's part stays in its segment, goes on to the next, or ends the sequence after its last; only the end of an INIT
sets INITD (R32, R98, R99). -/
theorem sequencer_place {done : Bool} {data : Word} {s u : State} (h : sequencer done data s = .next u) :
    (u.op = s.op ∧ (u.seg = s.seg ∨ u.seg.toNat = s.seg.toNat + 1) ∧ u.initd = s.initd) ∨
    (u.op = .none ∧ u.seg = 0 ∧ u.initd = (s.initd || decide (s.op = .init)) ∧
      s.seg.toNat + 1 = (prog s.op).length) := by
  rcases sequencer_cases h with ⟨_, _, _, _, _, rfl⟩ | ⟨_, _, _, hc, _, rfl⟩ | ⟨_, _, _, rfl⟩ | ⟨i, hc, _, _, rfl⟩ |
    ⟨_, _, _, _, rfl⟩
  · exact .inl ⟨rfl, .inl rfl, rfl⟩
  · rcases advance_place hc with ⟨hop, hseg, hi⟩ | ⟨hlast, e⟩
    · exact .inl ⟨hop, .inr hseg, hi⟩
    · exact .inr ⟨congrArg State.op e, congrArg State.seg e, congrArg State.initd e, hlast⟩
  · exact .inl ⟨rfl, .inl rfl, rfl⟩
  · rcases advance_place (s := storeSample i data s) hc with ⟨hop, hseg, hi⟩ | ⟨hlast, e⟩
    · exact .inl ⟨hop, .inr hseg, hi⟩
    · exact .inr ⟨congrArg State.op e, congrArg State.seg e, congrArg State.initd e, hlast⟩
  · exact .inl ⟨rfl, .inl rfl, rfl⟩

/-- The sequencer's part writes FRAME only in an answered sample segment (R53, R96). -/
theorem sequencer_frame {done : Bool} {data : Word} {s u : State} (h : sequencer done data s = .next u) :
    u.frame = s.frame ∨ ∃ i, currentSegment s = some (.sample i) ∧ s.sph = .wait ∧ done = true ∧
      u.frame = (storeSample i data s).frame := by
  rcases sequencer_cases h with ⟨_, _, _, _, _, rfl⟩ | ⟨_, _, _, _, _, rfl⟩ | ⟨_, _, _, rfl⟩ | ⟨i, hc, hs, hd, rfl⟩ |
    ⟨_, _, _, _, rfl⟩
  · exact .inl rfl
  · exact .inl (advance_frame s)
  · exact .inl rfl
  · exact .inr ⟨i, hc, hs, hd, advance_frame _⟩
  · exact .inl rfl

/-! ## Where the sample segments lie (R108) -/

/-- Sample(i) is segment 277 + 3 × i of CAPTURE, and no other segment (R107, R108). -/
theorem prog_getElem?_eq_sample {op : Op} {k : Nat} {i : Pixel} :
    (prog op)[k]? = some (.sample i) ↔ op = .capture ∧ k = 277 + 3 * i.val := by
  have hi := i.isLt
  cases op with
  | none => simp
  | init => rw [prog_init_getElem?]; split_ifs <;> simp
  | capture =>
    rw [prog_capture_getElem?, prog_init_getElem?, capturePass_getElem?]
    simp only [true_and]
    split_ifs <;> simp [Fin.ext_iff] <;> omega

/-- The block is in the sample segment of pixel `i` (R46, R108). -/
theorem currentSegment_eq_sample {s : State} {i : Pixel} :
    currentSegment s = some (.sample i) ↔ s.op = .capture ∧ s.seg.toNat = 277 + 3 * i.val :=
  prog_getElem?_eq_sample

theorem isSample_iff {o : Option Segment} : isSample o = true ↔ ∃ i, o = some (.sample i) := by
  rcases o with _ | (_ | _) <;> simp [isSample]

/-- ADC_BUSY is shown in the sample segments and only there (R46, R108). -/
theorem adcBusy_iff (s : State) : adcBusy s = true ↔ s.op = .capture ∧ ∃ i : Pixel, s.seg.toNat = 277 + 3 * i.val := by
  have hrun : (∃ i, currentSegment s = some (.sample i)) → busy s = true := fun ⟨i, hi⟩ =>
    (busy_iff s).mpr (currentSegment_lt hi).1
  rw [adcBusy, Bool.and_eq_true, isSample_iff, and_iff_right_of_imp hrun]
  simp only [currentSegment_eq_sample, exists_and_left]

/-- Of the segments before segment `k` of CAPTURE, `(k - 275) / 3` are samples, up to 128 (R107). -/
theorem sampleCount_take_capture (k : Nat) : sampleCount ((prog .capture).take k) = min 128 ((k - 275) / 3) := by
  induction k with
  | zero => rfl
  | succ k ih =>
    rw [List.take_add_one, sampleCount_append, ih, prog_capture_getElem?, prog_init_getElem?, capturePass_getElem?]
    split_ifs <;> simp [sampleCount] <;> omega

end Sys2Proof.Machine
end

section
/-!
PROOFS. What a step never does: FREQ, INITD, FRAME and SEG change only as R32, R36, R53 and R98 say.
-/

namespace Sys2Proof.Machine

/-- Settles O45: the host's part alone writes FREQ, and nothing writes the parameters. -/
theorem freqChangesOnlyBySetclkOrReset : Obligations.FreqChangesOnlyBySetclkOrReset := by
  unfold Obligations.FreqChangesOnlyBySetclkOrReset
  intro s t h
  rcases step_cases h with ⟨hr, rfl⟩ | ⟨-, -, a, ha, rfl⟩ | ⟨-, -, a, b, ha, hb, rfl⟩
  · exact ⟨rfl, fun _ => .inl hr⟩
  · obtain ⟨-, -, hpar⟩ := hostPart_keeps ha
    exact ⟨hpar, fun hne => .inr ((hostPart_freq ha).resolve_left hne)⟩
  · obtain ⟨-, -, hpar⟩ := hostPart_keeps ha
    obtain ⟨hpar', hfreq'⟩ := sequencer_par_freq hb
    exact ⟨hpar'.trans hpar, fun hne => .inr ((hostPart_freq ha).resolve_left fun e => hne (hfreq'.trans e))⟩

/-- Settles O46: INITD goes with the sequencer's place in the program of INIT. -/
theorem initdSetByInitEndClearedByReset : Obligations.InitdSetByInitEndClearedByReset := by
  unfold Obligations.InitdSetByInitEndClearedByReset
  intro s t h
  rcases step_cases h with ⟨hr, rfl⟩ | ⟨hr, ho, a, ha, rfl⟩ | ⟨hr, ho, a, b, ha, hb, rfl⟩
  · exact ⟨fun hr' => by simp [hr] at hr', fun _ => rfl⟩
  · obtain ⟨hinit, -, -⟩ := hostPart_keeps ha
    refine ⟨fun _ => ?_, fun hr' => by simp [hr] at hr'⟩
    simp [hinit, ho]
  · obtain ⟨f, e, ov, c, v, rfl⟩ := hostPart_running ho ha
    refine ⟨fun _ => ?_, fun hr' => by simp [hr] at hr'⟩
    rcases sequencer_place hb with ⟨hop, -, hinit⟩ | ⟨hop, -, hinit, -⟩
    · have hrun : b.op ≠ .none := hop ▸ ho
      simp [hinit, hrun]
    · simp [hinit, hop]

/-- Settles O48: only the answered sample segment of its own pixel stores into an entry. -/
theorem frameWrittenOnlyBySample : Obligations.FrameWrittenOnlyBySample := by
  unfold Obligations.FrameWrittenOnlyBySample
  intro s t j h hr hne
  rcases step_cases h with ⟨hr', -⟩ | ⟨-, -, a, ha, rfl⟩ | ⟨-, ho, a, b, ha, hb, rfl⟩
  · simp [hr] at hr'
  · obtain ⟨-, hframe, -⟩ := hostPart_keeps ha
    simp [hframe] at hne
  · obtain ⟨f, e, ov, c, v, rfl⟩ := hostPart_running ho ha
    rw [elapse_frame] at hne ⊢
    rcases sequencer_frame hb with hkeep | ⟨i, hc, hs, hd, hstore⟩
    · rw [hkeep] at hne
      exact absurd rfl hne
    · rw [hstore] at hne ⊢
      have hij : j = i := by
        by_contra hij
        exact hne (storeSample_other hij _ _)
      obtain ⟨hop, hseg⟩ := currentSegment_eq_sample.mp hc
      subst hij
      exact ⟨hop, hseg, hs, hd, storeSample_same _ _ _⟩

/-- Settles O49: the sequencer's place in its program. -/
theorem segNeverJumps : Obligations.SegNeverJumps := by
  unfold Obligations.SegNeverJumps
  intro s t ho h hr
  rcases step_cases h with ⟨hr', -⟩ | ⟨-, ho', -⟩ | ⟨-, -, a, b, ha, hb, rfl⟩
  · simp [hr] at hr'
  · exact absurd ho' ho
  · obtain ⟨f, e, ov, c, v, rfl⟩ := hostPart_running ho ha
    rcases sequencer_place hb with ⟨hop, hseg, -⟩ | ⟨hop, hseg, -, hlast⟩
    · exact .inl ⟨hop, hseg⟩
    · exact .inr ⟨hop, hseg, hlast⟩

end Sys2Proof.Machine
end

section
/-!
PROOFS. The invariant of the legal states (R26..R38, R53, R110, R135): reset establishes it and every step keeps it.
-/

namespace Sys2Proof.Machine

/-! ## Legality and the host's part -/

/-- Legality says nothing of SPH, INITD, FNOINIT and the model's own fields but the parameters. -/
theorem Legal.with_unconstrained {s : State} (h : Legal s) (sph : Sph) (initd fnoinit : Bool) (v : Word)
    (stim : List CycleInput) (n : Nat) :
    Legal { s with sph := sph, initd := initd, fnoinit := fnoinit, hRdata := v, stim := stim, cycle := n } :=
  ⟨h.params, h.freqLegal, h.idleSeg, h.busySeg, h.timer, h.lines, h.riseCount, h.sampleCounted, h.countsBounded, h.noError,
    h.someError, h.frameWidth, h.frameProgress, h.frameValid⟩

theorem Legal.driveRdata {s : State} (h : Legal s) (v : Word) : Legal (driveRdata v s) :=
  h.with_unconstrained s.sph s.initd s.fnoinit v s.stim s.cycle

theorem Legal.elapse {s : State} (h : Legal s) : Legal (elapse s) :=
  h.with_unconstrained s.sph s.initd s.fnoinit s.hRdata s.stim.tail (s.cycle + 1)

/-- Error elements that fit together keep a state legal (R134, R135). -/
theorem Legal.with_errors {s : State} (h : Legal s) {e ov : Bool} {c : ErrCause}
    (hno : e = false → c = .none ∧ ov = false) (hsome : e = true → c ≠ .none) :
    Legal { s with err := e, errovf := ov, errcause := c } :=
  { h with noError := hno, someError := hsome }

theorem Legal.clearErrors {s : State} (h : Legal s) : Legal (clearErrors s) :=
  h.with_errors (fun _ => ⟨rfl, rfl⟩) (fun he => by cases he)

theorem Legal.raiseHostError {s : State} (h : Legal s) {c : ErrCause} (hc : c ≠ .none) : Legal (raiseHostError c s) := by
  rw [raiseHostError_eq]
  refine h.with_errors (fun he => by cases he) (fun _ => ?_)
  split_ifs with he
  · exact h.someError he
  · exact hc

/-- FREQ always holds a clamped value (R36, R85). -/
theorem clampFreq_range (v : Int) : 1 ≤ (clampFreq v).toNat ∧ (clampFreq v).toNat ≤ 500000 := by
  rw [clampFreq_toNat]; exact clampf_range v

theorem Legal.writeFreq {s : State} (h : Legal s) (d : Word) : Legal (writeFreq d s) :=
  { h with freqLegal := clampFreq_range _ }

/-- The timer is loaded below the longest half period (R16, R29). -/
theorem timer_lt {p : Config.Params} {f : Nat} (hp : p.wf) (hf : 1 ≤ f ∧ f ≤ 500000) (d : HoldTime) :
    (BitVec.ofNat 32 (dur p d f - 1)).toNat < 2147483648 := by
  have hload := timer_toNat_succ hp hf d
  have hdur : dur p d f ≤ 2147483648 := by
    cases d with
    | half => exact (halfcyc_range hp hf.1 hf.2).2
    | settle => have hs := (settlecyc_range hp).2.2; simp only [dur]; omega
  omega

/-- An accepted command is in the first segment of its program with nothing counted (R112, R94). -/
theorem Legal.accept {s : State} (h : Legal s) {op : Op} (hop : op ≠ .none) :
    Legal (accept op s) := by
  have hfirst : (prog op).take 1 = [.hold true false .half] := by
    rw [List.take_one, List.head?_eq_getElem?, prog_head hop]; rfl
  have hlen : 0 < (prog op).length := (List.getElem?_eq_some_iff.mp (prog_head hop)).1
  rw [accept_eq hop]
  exact { h with
    idleSeg := fun _ => rfl
    busySeg := fun _ => hlen
    timer := timer_lt h.params h.freqLegal .half
    lines := fun _ => by simp [hfirst, linesAfter]
    riseCount := fun _ => by simp [hfirst, risingEdges]
    sampleCounted := fun _ => by simp [sampleCount]
    countsBounded := by simp
    frameProgress := fun _ i hi => by simp at hi
    frameValid := fun hv => by
      by_cases hc : op = .capture
      · simp [hc] at hv
      · exact ⟨hc, (h.frameValid (by simpa [hc] using hv)).2⟩ }

theorem Legal.hostPart {lane : HostLane} {s a : State} (h : Legal s) (hh : hostPart lane s = .next a) : Legal a := by
  rcases hostPart_effects hh with ⟨v, rfl⟩ | rfl | ⟨c, hc, rfl⟩ | ⟨op, hop, -, rfl⟩ | ⟨u, d, -, -, -, rfl⟩
  · exact h.driveRdata v
  · exact (h.driveRdata 0).clearErrors
  · exact (h.driveRdata 0).raiseHostError hc
  · exact (h.driveRdata 0).accept hop
  · exact (h.driveRdata 0).writeFreq d

/-! ## Legality and the sequencer's part -/

/-- No part of a program has more than 268 rising edges (R37, R110). -/
theorem risingEdges_take_le (op : Op) (k : Nat) : risingEdges false ((prog op).take k) ≤ 268 := by
  have hsum := risingEdges_append ((prog op).take k) ((prog op).drop k) false false
  rw [List.take_append_drop] at hsum
  have htotal : risingEdges false (prog op) ≤ 268 := by
    cases op with
    | none => simp [risingEdges]
    | init => rw [risingEdges_init]; decide
    | capture => rw [risingEdges_capture]
  omega

/-- No part of a program has more than 128 sample segments (R38, R110). -/
theorem sampleCount_take_le (op : Op) (k : Nat) : sampleCount ((prog op).take k) ≤ 128 := by
  have hsum := sampleCount_append ((prog op).take k) ((prog op).drop k)
  rw [List.take_append_drop] at hsum
  have htotal : sampleCount (prog op) ≤ 128 := by
    cases op with
    | none => simp [sampleCount]
    | init => rw [sampleCount_init]; decide
    | capture => rw [sampleCount_capture]
  omega

/-- The lines after one more segment, where they are known up to it. -/
theorem linesAfter_take_succ {p : List Segment} {k : Nat} {g : Segment} (h : p[k]? = some g) {l : Bool × Bool}
    (hl : l = linesAfter (false, false) (p.take k)) :
    linesAfter (false, false) (p.take (k + 1)) = linesAfter l [g] := by
  rw [List.take_add_one, linesAfter_append, h, ← hl]; rfl

/-- One more segment adds its own rising edge. -/
theorem risingEdges_take_succ {p : List Segment} {k : Nat} {g : Segment} (h : p[k]? = some g) {si ck : Bool}
    (hl : (si, ck) = linesAfter (false, false) (p.take k)) :
    risingEdges false (p.take (k + 1)) = risingEdges false (p.take k) + risingEdges ck [g] := by
  rw [List.take_add_one, risingEdges_append _ _ false, h, ← hl]; rfl

/-- One more segment adds its own sample. -/
theorem sampleCount_take_succ {p : List Segment} {k : Nat} {g : Segment} (h : p[k]? = some g) :
    sampleCount (p.take (k + 1)) = sampleCount (p.take k) + sampleCount [g] := by
  rw [List.take_add_one, sampleCount_append, h]; rfl

/-- What the end of a segment leaves: `n` counts the samples up to and with it, and `fr` is FRAME with what it stored. -/
structure SegmentStored (s : State) (fr : Vector (Option Word) 128) (n : BitVec 8) : Prop where
  counted : n.toNat = sampleCount ((prog s.op).take (s.seg.toNat + 1))
  fits : frameFits { s with frame := fr }
  progress : s.op = .capture → ∀ i : Pixel, i.val < n.toNat → (fr[i]).isSome
  valid : s.fvalid = true → ∀ i : Pixel, (fr[i]).isSome

/-- A hold segment stores nothing. -/
theorem Legal.segmentStored_hold {s : State} (h : Legal s) {si ck : Bool} {d : HoldTime}
    (hc : currentSegment s = some (.hold si ck d)) : SegmentStored s s.frame s.sampcnt where
  counted := by rw [sampleCount_take_succ hc, h.sampleCounted (currentSegment_lt hc).1]; rfl
  fits := h.frameWidth
  progress := h.frameProgress
  valid hv := (h.frameValid hv).2

/-- The sample segment of pixel `i` finds `i` samples counted (R38, R107). -/
theorem Legal.sampcnt_of_sample {s : State} (h : Legal s) {i : Pixel} (hc : currentSegment s = some (.sample i)) :
    s.sampcnt.toNat = i.val := by
  obtain ⟨hop, hseg⟩ := currentSegment_eq_sample.mp hc
  rw [h.sampleCounted (by simp [hop]), hop, sampleCount_take_capture, hseg]
  omega

/-- A sample segment stores its own pixel and counts it (R38, R96). -/
theorem Legal.segmentStored_sample {s : State} (h : Legal s) {i : Pixel} (hc : currentSegment s = some (.sample i))
    (data : Word) : SegmentStored s (storeSample i data s).frame (s.sampcnt + 1) := by
  have hcnt := h.sampcnt_of_sample hc
  have hop : s.op = .capture := op_of_sample hc
  have hsucc : (s.sampcnt + 1).toNat = s.sampcnt.toNat + 1 := by
    have hi := i.isLt
    bv_omega
  refine ⟨?_, frameFits_storeSample h.frameWidth i data, fun _ j hj => ?_, fun hv => absurd hop (h.frameValid hv).1⟩
  · rw [hsucc, sampleCount_take_succ hc, h.sampleCounted (by simp [hop])]; rfl
  · by_cases hij : j = i
    · rw [hij, storeSample_same]; rfl
    · rw [storeSample_other hij]
      have hne : j.val ≠ i.val := fun e => hij (Fin.ext e)
      exact h.frameProgress hop j (by omega)

/-- The end of a sequence: a CAPTURE has written every entry (R33, R99). -/
theorem Legal.finish {s : State} (h : Legal s) {fr : Vector (Option Word) 128} {n : BitVec 8}
    (hs : SegmentStored s fr n) (hlast : s.seg.toNat + 1 = (prog s.op).length) :
    Legal (finish { s with frame := fr, sampcnt := n }) :=
  { h with
    idleSeg := fun _ => rfl
    busySeg := fun ho => absurd rfl ho
    lines := fun ho => absurd rfl ho
    riseCount := fun ho => absurd rfl ho
    sampleCounted := fun ho => absurd rfl ho
    countsBounded := ⟨h.countsBounded.1, hs.counted ▸ sampleCount_take_le _ _⟩
    frameWidth := hs.fits
    frameProgress := fun ho => by cases ho
    frameValid := fun hv => by
      refine ⟨by simp, fun i => ?_⟩
      by_cases hop : s.op = .capture
      · have hall : n.toNat = 128 := by
          rw [hs.counted, hlast, List.take_length, hop, sampleCount_capture]
        exact hs.progress hop i (by omega)
      · exact hs.valid (by simpa [hop] using hv) i }

/-- Going on to the next segment `g`, with the lines and the rising edges that fit it (R31, R37, R98). -/
theorem Legal.of_next_segment {s t : State} (h : Legal s) (hrun : s.op ≠ .none) {fr : Vector (Option Word) 128} {n : BitVec 8}
    (hs : SegmentStored s fr n) {g : Segment} (hg : (prog s.op)[s.seg.toNat + 1]? = some g)
    (hlines : (t.si, t.sclk) = linesAfter (s.si, s.sclk) [g])
    (hrise : t.risecnt.toNat = s.risecnt.toNat + risingEdges s.sclk [g]) (htimer : t.tcnt.toNat < 2147483648)
    (ht : t = { s with
      frame := fr, sampcnt := n, seg := BitVec.ofNat 10 (s.seg.toNat + 1), sph := t.sph, si := t.si, sclk := t.sclk,
      tcnt := t.tcnt, risecnt := t.risecnt }) : Legal t := by
  have hseg := segIndex_toNat hg
  have hcount : s.risecnt.toNat + risingEdges s.sclk [g] =
      risingEdges false ((prog s.op).take (s.seg.toNat + 1 + 1)) := by
    rw [risingEdges_take_succ hg (h.lines hrun), h.riseCount hrun]
  rw [ht]
  exact { h with
    idleSeg := fun ho => absurd ho hrun
    busySeg := fun _ => by simpa only [hseg] using (List.getElem?_eq_some_iff.mp hg).1
    timer := htimer
    lines := fun _ => by simp only [hseg, linesAfter_take_succ hg (h.lines hrun), hlines]
    riseCount := fun _ => by simp only [hseg, hrise, hcount]
    sampleCounted := fun _ => by simp only [hseg, hs.counted]
    countsBounded := ⟨by rw [hrise, hcount]; exact risingEdges_take_le _ _, hs.counted ▸ sampleCount_take_le _ _⟩
    frameWidth := hs.fits
    frameProgress := hs.progress
    frameValid := fun hv => ⟨(h.frameValid hv).1, hs.valid hv⟩ }

/-- Where a segment ends, a legal state goes on to the next or ends its sequence. -/
theorem Legal.advance {s : State} (h : Legal s) {g : Segment} (hc : currentSegment s = some g)
    {fr : Vector (Option Word) 128} {n : BitVec 8} (hs : SegmentStored s fr n) :
    Legal (advance { s with frame := fr, sampcnt := n }) := by
  have hrun : s.op ≠ .none := (currentSegment_lt hc).1
  rcases advance_cases (s := { s with frame := fr, sampcnt := n }) hc with
    ⟨hlast, e⟩ | ⟨si, ck, d, hg, e⟩ | ⟨i, hg, e⟩
  · rw [e]
    exact h.finish hs hlast
  · rw [e]
    have hbound := h.countsBounded.1
    refine h.of_next_segment hrun hs hg rfl ?_ (timer_lt h.params h.freqLegal d) rfl
    simp only [risingEdges]
    split_ifs <;> bv_omega
  · rw [e]
    exact h.of_next_segment hrun hs hg rfl rfl h.timer rfl

/-- The sequencer's part keeps a state legal (R95..R99). -/
theorem Legal.sequencer {done : Bool} {data : Word} {s u : State} (h : Legal s)
    (hu : sequencer done data s = .next u) : Legal u := by
  rcases sequencer_cases hu with ⟨_, _, _, _, ht, rfl⟩ | ⟨_, _, _, hc, _, rfl⟩ | ⟨_, _, _, rfl⟩ | ⟨i, hc, _, _, rfl⟩ |
    ⟨_, _, _, _, rfl⟩
  · have htimer := h.timer
    exact { h with timer := by simp only; bv_omega }
  · exact h.advance hc (h.segmentStored_hold hc)
  · exact h.with_unconstrained .wait s.initd s.fnoinit s.hRdata s.stim s.cycle
  · exact h.advance hc (h.segmentStored_sample hc data)
  · exact h

/-! ## Legality and the step -/

/-- The reset state is legal for parameters in range (R56). -/
theorem legal_resetOf {p : Config.Params} (hp : p.wf) : Legal (State.resetOf p) where
  params := hp
  freqLegal := clampFreq_range _
  idleSeg _ := rfl
  busySeg ho := absurd rfl ho
  timer := by simp [State.resetOf]
  lines ho := absurd rfl ho
  riseCount ho := absurd rfl ho
  sampleCounted ho := absurd rfl ho
  countsBounded := by simp [State.resetOf]
  noError _ := ⟨rfl, rfl⟩
  someError he := by cases he
  frameWidth := frameFits_resetOf p
  frameProgress ho := by cases ho
  frameValid hv := by cases hv

/-- A cycle of reset leaves a legal state, whatever state it finds (R145, R147). -/
theorem legal_resetCycle {s : State} (hp : s.par.wf) : Legal (elapse (resetCycle s)) :=
  Legal.elapse ((legal_resetOf hp).with_unconstrained _ _ _ _ s.stim s.cycle)

/-- The parameters of this hardware are in range (R15). -/
theorem params_wf : Config.params.wf := by
  have hdraw := Config.fSysDraw.isLt
  simp only [Config.Params.wf, Config.params, Config.fSys]
  omega

/-- Settles O52: the host's part and then the sequencer's keep a state legal, and reset makes it so. -/
theorem stepKeepsLegalStates : Obligations.StepKeepsLegalStates := by
  unfold Obligations.StepKeepsLegalStates
  intro s t h hst
  rcases step_cases hst with ⟨-, rfl⟩ | ⟨-, -, a, ha, rfl⟩ | ⟨-, -, a, b, ha, hb, rfl⟩
  · exact legal_resetCycle h.params
  · exact (h.hostPart ha).elapse
  · exact ((h.hostPart ha).sequencer hb).elapse

/-- Settles O51: reset states are legal, with this hardware's parameters and from power-up too. -/
theorem resetStateIsLegal : Obligations.ResetStateIsLegal := by
  unfold Obligations.ResetStateIsLegal
  refine ⟨fun p hp => legal_resetOf hp, legal_resetOf params_wf, fun s hs => ?_⟩
  obtain ⟨hp, hr⟩ := hs
  exact ⟨_, runCycle_reset hr, legal_resetCycle hp⟩

end Sys2Proof.Machine
end

section
/-!
PROOFS. The reset cycle (R56, R145), the reads after reset, STATUS bit by bit (R46, R123) and the reads of FRAME (R128).
-/

namespace Sys2Proof.Machine

/-! ## The reset cycle (R56, R145) -/

/-- FREQ after reset is CTOR_FREQ, or the default where that is out of range (R56, R85). -/
theorem clampf_eq (v : Int) : (clampf v : Int) = if 1 ≤ v ∧ v ≤ 500000 then v else 500000 := by
  by_cases h : 1 ≤ v ∧ v ≤ 500000
  · have hnat : (v.toNat : Int) = v := Int.toNat_of_nonneg (by omega)
    simp [clampf, Config.fMax, h, hnat]
  · simp [clampf, Config.fMax, Config.fDefault, h]

/-- Settles O9: a cycle of reset is `resetCycle`, which takes nothing but the parameters from the state it finds. -/
theorem resetCycleGivesResetState : Obligations.ResetCycleGivesResetState := by
  unfold Obligations.ResetCycleGivesResetState
  intro s hr
  have hfreq : (elapse (resetCycle s)).freq.toNat = clampf s.par.ctorFreq := clampFreq_toNat _
  have hclamp := clampf_eq s.par.ctorFreq
  refine ⟨_, runCycle_reset hr, rfl, rfl, rfl, rfl, rfl, rfl, rfl, rfl, rfl, rfl, rfl, rfl, ?_, rfl, rfl, fun i => ?_,
    rfl, rfl, rfl, rfl⟩
  · rw [hfreq]
    split_ifs at hclamp ⊢ <;> omega
  · simp [resetCycle, State.resetOf]

/-! ## STATUS (R46, R123) -/

theorem getLsbD_bitWord (b : Bool) (k : Nat) : (bitWord b).getLsbD k = (b && decide (k = 0)) := by
  cases b
  · simp [bitWord]
  · simp [bitWord]

/-- A flag put at bit `n` of a word is that bit and no other. -/
theorem getLsbD_bitWord_shiftLeft (b : Bool) {n : Nat} (hn : n < 32) (k : Nat) :
    (bitWord b <<< n).getLsbD k = (b && decide (k = n)) := by
  rw [BitVec.getLsbD_shiftLeft, getLsbD_bitWord]
  by_cases hk : k = n
  · simp [hk, hn]
  · have hout : ¬ (n ≤ k ∧ k - n = 0) := by omega
    grind

/-- Every bit of STATUS (R46, R123). -/
theorem getLsbD_statusWord (s : State) (k : Nat) : (statusWord s).getLsbD k =
    (busy s && decide (k = 0) || s.initd && decide (k = 1) || s.fvalid && decide (k = 2) ||
      s.fnoinit && decide (k = 3) || s.err && decide (k = 4) || s.errovf && decide (k = 5) ||
      decide (8 ≤ k) && (protoCode (protoState s)).getLsbD (k - 8) ||
      s.si && decide (k = 16) || s.sclk && decide (k = 17) || adcBusy s && decide (k = 18)) := by
  have hproto : ((protoCode (protoState s)).setWidth 32 <<< 8).getLsbD k =
      (decide (8 ≤ k) && (protoCode (protoState s)).getLsbD (k - 8)) := by
    have hwide : 3 ≤ k - 8 → (protoCode (protoState s)).getLsbD (k - 8) = false := BitVec.getLsbD_of_ge _ _
    rw [BitVec.getLsbD_shiftLeft, BitVec.getLsbD_setWidth]
    by_cases hk : k - 8 < 3
    · grind
    · simp [hwide (by omega)]
  simp only [statusWord, BitVec.getLsbD_or, hproto, getLsbD_bitWord, getLsbD_bitWord_shiftLeft, Nat.reduceLT]

/-- STATUS.STATE is the code of the protocol state (R46, R47). -/
theorem extractLsb'_statusWord (s : State) : (statusWord s).extractLsb' 8 3 = protoCode (protoState s) := by
  ext k hk
  have hflag : ∀ n < 8, 8 + k ≠ n := by omega
  have hline : 8 + k ≠ 16 ∧ 8 + k ≠ 17 ∧ 8 + k ≠ 18 := by omega
  simp [getLsbD_statusWord, hflag, hline, hk]

/-- The codes of R47. -/
theorem protoCode_protoState (s : State) : (protoCode (protoState s)).toNat =
    if s.op = .none then (if s.initd = true then 1 else 0) else if s.op = .init then 2
      else if s.seg.toNat ≤ 268 then 3 else 4 := by
  unfold protoState
  cases s.op with
  | none => cases s.initd <;> rfl
  | init => rfl
  | capture => simp only [reduceCtorEq, if_false]; split_ifs <;> rfl

/-- Settles O30: each flag at its bit, STATE at [10:8]. -/
theorem statusFields : Obligations.StatusFields := by
  unfold Obligations.StatusFields
  refine ⟨by decide, fun s => ⟨driveRdata (statusWord s) s, rfl, rfl, ?_⟩⟩
  rw [driveRdata_hRdata, extractLsb'_statusWord, protoCode_protoState]
  simp only [getLsbD_statusWord]
  refine ⟨?_, ?_, ?_, ?_, ?_, ?_, ?_, ?_, ?_, trivial, ?_⟩
  · simp [busy_iff]
  · simp
  · simp
  · simp
  · simp
  · simp
  · simp
  · simp
  · simp [adcBusy_iff]
  · intro k hk
    have hflag : k ≠ 0 ∧ k ≠ 1 ∧ k ≠ 2 ∧ k ≠ 3 ∧ k ≠ 4 ∧ k ≠ 5 ∧ k ≠ 16 ∧ k ≠ 17 ∧ k ≠ 18 := by omega
    have hproto : 8 ≤ k → (protoCode (protoState s)).getLsbD (k - 8) = false := fun h =>
      BitVec.getLsbD_of_ge _ _ (by omega)
    simpa [hflag] using hproto

/-! ## The reads after reset (R56) -/

theorem statusWord_resetOf (p : Config.Params) : statusWord (State.resetOf p) = 0 := by
  simp [statusWord, State.resetOf, bitWord, busy, adcBusy, protoState, protoCode]

/-- Settles O10: FREQ is the clamped CTOR_FREQ, and HALFCYC its half period (R16). -/
theorem readsAfterReset : Obligations.ReadsAfterReset := by
  unfold Obligations.ReadsAfterReset
  intro p hp
  obtain ⟨hlow, hhigh⟩ := clampFreq_range p.ctorFreq
  have hfreq : (freqWord (State.resetOf p)).toNat = (clampFreq p.ctorFreq).toNat := by
    simp only [freqWord, State.resetOf, BitVec.toNat_setWidth]
    omega
  have hclamp : ((clampFreq p.ctorFreq).toNat : Int) =
      if 1 ≤ p.ctorFreq ∧ p.ctorFreq ≤ 500000 then p.ctorFreq else 500000 := by
    rw [clampFreq_toNat, clampf_eq]
  have hhalf : ∀ f : Nat, (f : Int) = (if 1 ≤ p.ctorFreq ∧ p.ctorFreq ≤ 500000 then p.ctorFreq else 500000) →
      p.fSys ≤ (halfcycWord (State.resetOf p)).toNat * (2 * f) ∧
        ∀ q, p.fSys ≤ q * (2 * f) → (halfcycWord (State.resetOf p)).toNat ≤ q := by
    intro f hf
    have hword : (halfcycWord (State.resetOf p)).toNat = halfcyc p (clampFreq p.ctorFreq).toNat :=
      halfcycWord_toNat (s := State.resetOf p) hp hlow hhigh
    have he : (clampFreq p.ctorFreq).toNat = f := by omega
    rw [hword, he]
    exact ⟨(ceilDiv_cover _ _ (by omega)).1, fun q => ceilDiv_least (by omega)⟩
  refine ⟨fun i hi => ?_, ⟨_, rfl, ?_⟩, fun f hf => ⟨_, rfl, hhalf f hf⟩, fun hc => ⟨_, rfl, ?_⟩⟩
  · simp only [List.mem_cons, List.not_mem_nil, or_false] at hi
    rcases hi with rfl | rfl | rfl | rfl | rfl
    · simp only [exec, execRdStatus, statusWord_resetOf]; rfl
    all_goals rfl
  · rw [driveRdata_hRdata, hfreq]
    exact ⟨hlow, hhigh, hclamp⟩
  · exact hhalf 500000 (by simp [hc])

/-! ## FRAME (R128) -/

/-- Settles O32: a written entry is read as it is, and an unwritten one as the low ADC_W bits of a free value. -/
theorem frameReads : Obligations.FrameReads := by
  unfold Obligations.FrameReads
  intro s i _
  refine ⟨driveRdata (frameWord i s) s, rfl, rfl, fun v hv => ?_, fun hn => ?_⟩
  · rw [driveRdata_hRdata, frameWord, hv]
  · rw [driveRdata_hRdata, frameWord, hn]
    exact lowBits_lt _ _

end Sys2Proof.Machine
end

section
/-!
PROOFS. The bridge (R60, R61), which steps of a legal state complete (R133), and the repeated FREQ write (R63).
-/

namespace Sys2Proof.Machine

/-! ## The bridge (R60, R61) -/

/-- A whole aligned access within the window amounts to the transaction of its word (R60). -/
theorem bridgeTxn_wholeWord {a : BridgeAccess} (hw : a.width = 4) (hal : a.offset % 4 = 0) (hin : a.offset < 1024) :
    bridgeTxn a = .next ⟨a.we, BitVec.ofNat 8 (a.offset / 4), bridgeWord a⟩ := by
  simp [bridgeTxn, hw, hal, Nat.not_le.mpr hin]

theorem bridgeTxn_width {a : BridgeAccess} (hw : a.width ≠ 4) : bridgeTxn a = .refused .bridgeWidth := by
  simp [bridgeTxn, hw]

theorem bridgeTxn_misaligned {a : BridgeAccess} (hw : a.width = 4) (hal : a.offset % 4 ≠ 0) :
    bridgeTxn a = .refused .bridgeMisaligned := by
  simp [bridgeTxn, hw, hal]

theorem bridgeTxn_outside {a : BridgeAccess} (hw : a.width = 4) (hal : a.offset % 4 = 0) (hout : 1024 ≤ a.offset) :
    bridgeTxn a = .refused .bridgeOutside := by
  simp [bridgeTxn, hw, hal, hout]

/-- The word address of an offset within the window reaches that offset again (R57, R60). -/
theorem wordAddr_mul_four {n : Nat} (hal : n % 4 = 0) (hin : n < 1024) : 4 * (BitVec.ofNat 8 (n / 4)).toNat = n := by
  rw [BitVec.toNat_ofNat]
  omega

/-- The bytes of a word put together from bytes are those bytes, the first at bits [7:0] (R60). -/
theorem bridgeByte_bridgeWord (a : BridgeAccess) :
    bridgeByte (bridgeWord a) 0 = a.byte0 ∧ bridgeByte (bridgeWord a) 1 = a.byte1 ∧
      bridgeByte (bridgeWord a) 2 = a.byte2 ∧ bridgeByte (bridgeWord a) 3 = a.byte3 := by
  have hlow (n : Nat) (hn : n + 8 ≤ 16) : (bridgeWord a).extractLsb' n 8 = (a.byte1 ++ a.byte0).extractLsb' n 8 :=
    BitVec.extractLsb'_append_eq_of_add_le hn
  have hhigh (n : Nat) (hn : 16 ≤ n) : (bridgeWord a).extractLsb' n 8 = (a.byte3 ++ a.byte2).extractLsb' (n - 16) 8 :=
    BitVec.extractLsb'_append_eq_of_le hn
  refine ⟨?_, ?_, ?_, ?_⟩
  · exact (hlow 0 (by decide)).trans BitVec.extractLsb'_append_eq_right
  · exact (hlow 8 (by decide)).trans BitVec.extractLsb'_append_eq_left
  · exact (hhigh 16 (by decide)).trans BitVec.extractLsb'_append_eq_right
  · exact (hhigh 24 (by decide)).trans BitVec.extractLsb'_append_eq_left

/-- A cycle without reset stops by the name for which the bridge refuses its access (R61). -/
theorem step_refused_of_bridge {s : State} {a : BridgeAccess} {r : Refusal} (hr : (nextInput s).rst = false)
    (hh : (nextInput s).host = .bridged a) (hb : bridgeTxn a = .refused r) : step s = .refused r := by
  have hpart : hostPart (.bridged a) s = .refused r := by simp [hostPart, presented, hb]
  rw [step, runCycle_work hr, hh, hpart]
  rfl

/-- Settles O60: `bridgeTxn` case by case, and a refused access stops the cycle's host part. -/
theorem bridgeIsLittleEndianWordsOnly : Obligations.BridgeIsLittleEndianWordsOnly := by
  unfold Obligations.BridgeIsLittleEndianWordsOnly
  refine ⟨fun a hw hal hin => ?_, fun s a hr hh => ⟨fun hw => ?_, fun hw hal => ?_, fun hw hal hout => ?_⟩⟩
  · exact ⟨_, bridgeTxn_wholeWord hw hal hin, rfl, wordAddr_mul_four hal hin, bridgeByte_bridgeWord a⟩
  · exact step_refused_of_bridge hr hh (bridgeTxn_width hw)
  · exact step_refused_of_bridge hr hh (bridgeTxn_misaligned hw hal)
  · exact step_refused_of_bridge hr hh (bridgeTxn_outside hw hal hout)

/-! ## Steps that complete (R72, R133) -/

/-- A host lane amounts to a transaction or to none, unless it is a bridged access that is no whole aligned word of the
window (R60, R61, R72). -/
theorem presented_total (h : HostLane) : (∃ o, presented h = .next o) ∨
    ∃ a, h = .bridged a ∧ (a.width ≠ 4 ∨ a.offset % 4 ≠ 0 ∨ 1024 ≤ a.offset) := by
  cases h with
  | idle => exact .inl ⟨none, rfl⟩
  | txn t => exact .inl ⟨some t, rfl⟩
  | bridged a =>
    by_cases hbad : a.width ≠ 4 ∨ a.offset % 4 ≠ 0 ∨ 1024 ≤ a.offset
    · exact .inr ⟨a, rfl, hbad⟩
    · have htxn := bridgeTxn_wholeWord (a := a) (by omega) (by omega) (by omega)
      exact .inl ⟨some _, by rw [presented, htxn]⟩

/-- A running sequence of a legal state is in a segment of its program (R28). -/
theorem currentSegment_of_legal {s : State} (h : Legal s) (hrun : s.op ≠ .none) : ∃ g, currentSegment s = some g :=
  ⟨_, List.getElem?_eq_getElem (h.busySeg hrun)⟩

/-- After the host's part of a cycle from a legal state, the sequencer's part completes (R102, R133). -/
theorem sequencerPart_total_of_legal {s a : State} {lane : HostLane} (h : Legal s) (ha : hostPart lane s = .next a)
    (inp : CycleInput) : ∃ b, sequencerPart (busy s) inp a = .next b := by
  by_cases ho : s.op = .none
  · have hidle : busy s = false := by simp [busy, ho]
    exact ⟨a, by rw [hidle, sequencerPart_idle]⟩
  · have hop : a.op = s.op := by
      obtain ⟨f, e, ov, c, v, rfl⟩ := hostPart_running ho ha
      rfl
    obtain ⟨g, hg⟩ := currentSegment_of_legal (h.hostPart ha) (hop ▸ ho)
    rw [(busy_iff s).mpr ho, sequencerPart_busy]
    exact sequencer_total hg

/-- A legal state completes a cycle in which the host lane amounts to a transaction or to none (R133). -/
theorem step_total_of_legal {s : State} {o : Option Txn} (h : Legal s) (hp : presented (nextInput s).host = .next o) :
    ∃ t, step s = .next t := by
  cases hr : (nextInput s).rst with
  | true => exact ⟨_, runCycle_reset hr⟩
  | false =>
    obtain ⟨a, ha⟩ := hostPart_total (s := s) hp
    obtain ⟨b, hb⟩ := sequencerPart_total_of_legal h ha (nextInput s)
    refine ⟨elapse b, ?_⟩
    rw [step, runCycle_work hr, ha, andThen_of_next, hb, andThen_of_next]

/-- Settles O53: only the bridge refuses, and a legal state gives the sequencer a segment. -/
theorem legalStatesNeverStop : Obligations.LegalStatesNeverStop := by
  unfold Obligations.LegalStatesNeverStop
  intro s h
  rcases presented_total (nextInput s).host with ⟨o, ho⟩ | hrefused
  · exact .inl (step_total_of_legal h ho)
  · exact .inr hrefused

/-! ## The repeated FREQ write (R63) -/

theorem exec_setclk (d : Word) (s : State) : exec (.setclk d) s = .next (writeFreq d s) := rfl

/-- The value written to FREQ does not depend on the value it had (R115). -/
theorem writeFreq_writeFreq (d e : Word) (s : State) : writeFreq d (writeFreq e s) = writeFreq d s := rfl

/-- Settles O19: the second write finds nothing to change. -/
theorem setclkIsIdempotent : Obligations.SetclkIsIdempotent := by
  unfold Obligations.SetclkIsIdempotent
  intro s d
  rw [exec_setclk, andThen_of_next, exec_setclk, writeFreq_writeFreq]

end Sys2Proof.Machine
end

section
/-!
PROOFS. The encoding (R73, R76, R77): the decoder and the encoder undo each other, operand by operand.
-/

namespace Sys2Proof.Machine

/-! ## Operand ranges (R74, R77, R79) -/

/-- The reserved encodings of CMD are the words from 4 on (R74). -/
theorem reservedCmd_iff (d : Word) : reservedCmd d = true ↔ 4 ≤ d.toNat := by
  have hlt := d.isLt
  simp only [reservedCmd, Bool.or_eq_true, decide_eq_true_eq, ne_eq, ← BitVec.toNat_inj, BitVec.extractLsb'_toNat,
    Nat.shiftRight_eq_div_pow, BitVec.ofNat_eq_ofNat, BitVec.toNat_ofNat]
  omega

theorem reservedAddr_iff (wa : WordAddr) : reservedAddr wa = true ↔ 9 ≤ wa.toNat ∧ wa.toNat ≤ 127 := by
  simp [reservedAddr]

theorem ne_ofNat_of_lt {w k : Nat} {x : BitVec w} (h : k < x.toNat) : x ≠ BitVec.ofNat w k := by
  rintro rfl
  exact absurd h (Nat.not_lt.mpr (BitVec.toNat_ofNat k w ▸ Nat.mod_le _ _))

/-! ## The decoder beyond the named words and addresses (R77) -/

theorem decodeCmd_of_ge {d : Word} (h : 4 ≤ d.toNat) : decodeCmd d = .illCmd d := by
  have hne (k : Nat) (hk : k < 4) : d ≠ BitVec.ofNat 32 k := ne_ofNat_of_lt (by omega)
  simp [decodeCmd, hne]

theorem decodeWrite_of_ge {wa : WordAddr} (h : 2 ≤ wa.toNat) (d : Word) : decodeWrite wa d = .illWr wa d := by
  have hne (k : Nat) (hk : k < 2) : wa ≠ BitVec.ofNat 8 k := ne_ofNat_of_lt (by omega)
  simp [decodeWrite, hne]

theorem decodeRead_of_ge {wa : WordAddr} (h : 9 ≤ wa.toNat) :
    decodeRead wa = if 0x80 ≤ wa.toNat then .rdFrame (frameIndex wa) else .rdRsvd wa := by
  have hne (k : Nat) (hk : k < 9) : wa ≠ BitVec.ofNat 8 k := ne_ofNat_of_lt (by omega)
  simp only [decodeRead, getLsbD_seven_iff]
  simp [hne]

/-! ## FRAME addresses (R76) -/

theorem frameAddr_toNat (i : Pixel) : (BitVec.ofNat 8 (0x80 + i.val)).toNat = 0x80 + i.val := by
  have hlt := i.isLt
  rw [BitVec.toNat_ofNat]
  omega

theorem frameIndex_frameAddr (i : Pixel) : frameIndex (BitVec.ofNat 8 (0x80 + i.val)) = i := by
  have hlt := i.isLt
  apply Fin.ext
  simp only [frameIndex, frameAddr_toNat]
  omega

theorem frameAddr_frameIndex {wa : WordAddr} (h : 0x80 ≤ wa.toNat) :
    BitVec.ofNat 8 (0x80 + (frameIndex wa).val) = wa := by
  have hlt := wa.isLt
  apply BitVec.eq_of_toNat_eq
  rw [frameAddr_toNat]
  simp only [frameIndex]
  omega

theorem decodeRead_frameAddr (i : Pixel) : decodeRead (BitVec.ofNat 8 (0x80 + i.val)) = .rdFrame i := by
  have haddr := frameAddr_toNat i
  rw [decodeRead_of_ge (by omega), if_pos (by omega), frameIndex_frameAddr]

/-! ## Decoding what was encoded -/

theorem decode_word (t : Txn) : decode t.word = if t.we then decodeWrite t.wa t.data else decodeRead t.wa :=
  decode_txnWord _ _ _

/-- Settles O1: the operands of a row lead the decoder to that row, and a FRAME address gives its index back. -/
theorem decodeOfEncodeIsIdentity : Obligations.DecodeOfEncodeIsIdentity := by
  unfold Obligations.DecodeOfEncodeIsIdentity
  intro i hwf
  rw [encode, decode_word]
  cases i with
  | rdFrame i => exact decodeRead_frameAddr i
  | rdRsvd wa =>
    obtain ⟨hlow, hhigh⟩ := (reservedAddr_iff wa).mp hwf
    exact (decodeRead_of_ge hlow).trans (if_neg (by omega))
  | illCmd d => exact decodeCmd_of_ge ((reservedCmd_iff d).mp hwf)
  | illWr wa d => exact decodeWrite_of_ge (of_decide_eq_true hwf) d
  | _ => rfl

/-! ## What is decoded is well-formed (R77, R78) -/

theorem decodeCmd_wf (d : Word) : (decodeCmd d).wf = true := by
  unfold decodeCmd
  split_ifs with h0 h1 h2 h3
  any_goals rfl
  exact (reservedCmd_iff d).mpr (by bv_omega)

theorem decodeWrite_wf (wa : WordAddr) (d : Word) : (decodeWrite wa d).wf = true := by
  unfold decodeWrite
  split_ifs with h0 h1
  · exact decodeCmd_wf d
  · rfl
  · exact decide_eq_true (by bv_omega)

theorem decodeRead_wf (wa : WordAddr) : (decodeRead wa).wf = true := by
  unfold decodeRead
  split_ifs with h0 h1 h2 h3 h4 h5 h6 h7 h8 hf
  any_goals rfl
  rw [getLsbD_seven_iff] at hf
  exact (reservedAddr_iff wa).mpr (by bv_omega)

/-- Settles O2: the fallback rows are reached only past the words and addresses of the others. -/
theorem decodedInstructionIsWellFormed : Obligations.DecodedInstructionIsWellFormed := by
  unfold Obligations.DecodedInstructionIsWellFormed
  intro t
  unfold decode
  split
  · exact decodeWrite_wf t.wa t.data
  · exact decodeRead_wf t.wa

/-! ## Encoding what was decoded (R73, R76) -/

theorem decodeCmd_txn (d : Word) : (decodeCmd d).txn = ⟨true, 0x00, d⟩ := by
  unfold decodeCmd
  split_ifs with h0 h1 h2 h3
  any_goals (subst d; rfl)
  rfl

theorem decodeWrite_txn (wa : WordAddr) (d : Word) : (decodeWrite wa d).txn = ⟨true, wa, d⟩ := by
  unfold decodeWrite
  split_ifs with h0 h1
  · subst wa; exact decodeCmd_txn d
  · subst wa; rfl
  · rfl

theorem decodeRead_txn (wa : WordAddr) : (decodeRead wa).txn = ⟨false, wa, 0⟩ := by
  unfold decodeRead
  split_ifs with h0 h1 h2 h3 h4 h5 h6 h7 h8 hf
  any_goals (subst wa; rfl)
  · rw [Instr.txn, frameAddr_frameIndex ((getLsbD_seven_iff wa).mp hf)]
  · rfl

/-! ## The fields of a masked word (R73) -/

theorem word_ext_iff {t u : TxnWord} : t = u ↔ t.we = u.we ∧ t.wa = u.wa ∧ t.data = u.data := by
  refine ⟨fun h => by simp [h], fun ⟨hwe, hwa, hdata⟩ => ?_⟩
  rw [← txnWord_fields t, hwe, hwa, hdata, txnWord_fields]

@[simp] theorem we_and (t m : TxnWord) : TxnWord.we (t &&& m) = (t.we && m.we) := BitVec.getLsbD_and

@[simp] theorem wa_and (t m : TxnWord) : TxnWord.wa (t &&& m) = t.wa &&& m.wa := BitVec.extractLsb'_and

@[simp] theorem data_and (t m : TxnWord) : TxnWord.data (t &&& m) = t.data &&& m.data := BitVec.extractLsb'_and

@[simp] theorem we_ofNat (n : Nat) : TxnWord.we (BitVec.ofNat 41 n) = decide (n / 2 ^ 40 % 2 = 1) := by
  rw [TxnWord.we, BitVec.getLsbD_ofNat, Nat.testBit_eq_decide_div_mod_eq]
  rfl

@[simp] theorem wa_ofNat (n : Nat) : TxnWord.wa (BitVec.ofNat 41 n) = BitVec.ofNat 8 (n / 2 ^ 32) := by
  apply BitVec.eq_of_toNat_eq
  rw [TxnWord.wa, BitVec.extractLsb'_toNat, Nat.shiftRight_eq_div_pow, BitVec.toNat_ofNat, BitVec.toNat_ofNat]
  omega

@[simp] theorem data_ofNat (n : Nat) : TxnWord.data (BitVec.ofNat 41 n) = BitVec.ofNat 32 n := by
  apply BitVec.eq_of_toNat_eq
  rw [TxnWord.data, BitVec.extractLsb'_toNat, Nat.shiftRight_zero, BitVec.toNat_ofNat, BitVec.toNat_ofNat]
  omega

/-- A mask over all of an address examines all of it. -/
theorem and_addrMask (wa : WordAddr) : wa &&& 0xFF#8 = wa := BitVec.and_allOnes

/-- A mask over all of the data examines all of it. -/
theorem and_dataMask (d : Word) : d &&& 0xFFFFFFFF#32 = d := BitVec.and_allOnes

/-- The mask of RD_FRAME examines bit 7 of the address (R77). -/
theorem and_frameMask (wa : WordAddr) : wa &&& 0x80#8 = 0x80#8 ↔ 0x80 ≤ wa.toNat := by
  have hbit : wa &&& 0x80#8 = if wa.getLsbD 7 then 0x80#8 else 0#8 := BitVec.and_twoPow wa 7
  rw [hbit, ← getLsbD_seven_iff]
  cases wa.getLsbD 7 <;> decide

/-- The canonical word of a read is the word with its data bits masked (R76). -/
theorem txnWord_read (t : TxnWord) : txnWord false t.wa 0 = t &&& 0xFF00000000#41 := by
  simp [word_ext_iff, and_addrMask]

/-- Settles O3: the decoded instruction has the word's own fields, but for the data of a read. -/
theorem encodeOfDecodeKeepsWord : Obligations.EncodeOfDecodeKeepsWord := by
  unfold Obligations.EncodeOfDecodeKeepsWord
  intro t
  change encode (decode t) = if t.we = true then t else _
  unfold decode encode
  split
  · next hwrite => rw [decodeWrite_txn, Txn.word, ← hwrite, txnWord_fields]
  · rw [decodeRead_txn, Txn.word, txnWord_read]

/-- Settles O5: the decoder run on each word. -/
theorem specWordsDecode : Obligations.SpecWordsDecode := by
  unfold Obligations.SpecWordsDecode
  decide

end Sys2Proof.Machine
end

section
/-!
PROOFS. The opcode map (R77, R78): which rows a word hits, and that the decoder takes the first of them.
-/

namespace Sys2Proof.Machine

/-- A row is hit field by field. -/
theorem hits_eq (r : OpcodeRow) (t : TxnWord) : r.hits t = decide ((t.we && r.mask.we) = r.pattern.we ∧
    t.wa &&& r.mask.wa = r.pattern.wa ∧ t.data &&& r.mask.data = r.pattern.data) := by
  simp [OpcodeRow.hits, word_ext_iff]

/-- Two rows whose patterns differ in a bit that both examine are disjoint. -/
theorem not_hits_both {r q : OpcodeRow} (h : r.pattern &&& q.mask ≠ q.pattern &&& r.mask) (t : TxnWord) :
    ¬ (r.hits t = true ∧ q.hits t = true) := by
  simp only [OpcodeRow.hits, decide_eq_true_eq]
  rintro ⟨hr, hq⟩
  apply h
  rw [← hr, ← hq, BitVec.and_assoc, BitVec.and_assoc, BitVec.and_comm q.mask]

/-- The rows of one priority differ pairwise in a bit that both examine (R77). -/
theorem opcodeRows_conflict : ∀ r ∈ opcodeRows, ∀ q ∈ opcodeRows, r.priority = q.priority → r ≠ q →
    r.pattern &&& q.mask ≠ q.pattern &&& r.mask := by decide

/-- ILL_WR is hit by every write and RD_RSVD by every read (R78). -/
theorem exists_fallback_hit (t : TxnWord) :
    ∃ r ∈ opcodeRows, (r.mnemonic = "ILL_WR" ∨ r.mnemonic = "RD_RSVD") ∧ r.hits t = true := by
  rw [← txnWord_fields t]
  cases t.we with
  | false =>
    refine ⟨⟨"RD_RSVD", 0x10000000000, 0x00000000000, 1⟩, by decide, .inr rfl, ?_⟩
    exact Laws.hits_we (we := false) t.wa t.data rfl (by decide)
  | true =>
    refine ⟨⟨"ILL_WR", 0x10000000000, 0x10000000000, 2⟩, by decide, .inl rfl, ?_⟩
    exact Laws.hits_we (we := true) t.wa t.data rfl (by decide)

/-- The first row that a read hits is the decoder's: the row of its address, or a fallback. -/
theorem firstRow_read {t : TxnWord} (h : t.we = false) :
    (firstRow t).map (·.mnemonic) = some (decodeRead t.wa).mnemonic := by
  simp only [decodeRead, BitVec.ofNat_eq_ofNat, getLsbD_seven_iff]
  split_ifs
  all_goals simp [*, firstRow, opcodeRows, commandRows, readRows, fallbackRows, hits_eq, and_addrMask, and_frameMask,
    Instr.mnemonic]

/-- The first row that a write hits is the decoder's: the row of its command or of FREQ, or a fallback. -/
theorem firstRow_write {t : TxnWord} (h : t.we = true) :
    (firstRow t).map (·.mnemonic) = some (decodeWrite t.wa t.data).mnemonic := by
  simp only [decodeWrite, decodeCmd, BitVec.ofNat_eq_ofNat]
  split_ifs
  all_goals simp [*, firstRow, opcodeRows, commandRows, readRows, fallbackRows, hits_eq, and_addrMask, and_dataMask,
    Instr.mnemonic]

theorem firstRow_decode (t : TxnWord) : (firstRow t).map (·.mnemonic) = some (decode t).mnemonic := by
  unfold decode
  split
  · next hwrite => exact firstRow_write hwrite
  · next hread => exact firstRow_read (by simpa using hread)

/-- Settles O4: the rows of one priority conflict, the fallbacks cover, and the first hit is the decoder's branch. -/
theorem decoderTakesFirstMatchingRow : Obligations.DecoderTakesFirstMatchingRow := by
  unfold Obligations.DecoderTakesFirstMatchingRow
  refine ⟨by decide, fun r hr q hq hp hne => ?_, exists_fallback_hit, fun t => ?_⟩
  · exact not_hits_both (opcodeRows_conflict r hr q hq hp hne)
  · exact Option.map_eq_some_iff.mp (firstRow_decode t)

end Sys2Proof.Machine
end

section
/-!
PROOFS. The cycle (R72, R102): what a cycle without reset runs, and a word placed for the coming cycle.
-/

namespace Sys2Proof.Machine

/-! ## A cycle without reset (R102) -/

/-- The sequencer's part runs where a sequence was running at the start of the cycle. -/
theorem sequencerPart_busy_eq (inp : CycleInput) (s a : State) :
    sequencerPart (busy s) inp a = if s.op = .none then .next a else sequencer inp.adcDone inp.adcData a := by
  by_cases ho : s.op = .none <;> simp [sequencerPart, busy, ho]

theorem step_work {s : State} (h : (nextInput s).rst = false) :
    step s = andThen (hostPart (nextInput s).host s) fun s1 =>
      andThen (if s.op = .none then .next s1 else sequencer (nextInput s).adcDone (nextInput s).adcData s1) fun s2 =>
        .next (elapse s2) := by
  simp only [step, runCycle_work h, sequencerPart_busy_eq]

theorem hostPart_presented {h : HostLane} {t : Txn} (hp : presented h = .next (some t)) (s : State) :
    hostPart h s = exec (decode t.word) (driveRdata 0 s) := by
  simp [hostPart, hp]

/-- Settles O6: the host's part is the decoded instruction's meaning. -/
theorem stepRunsDecodedTransaction : Obligations.StepRunsDecodedTransaction := by
  unfold Obligations.StepRunsDecodedTransaction
  rintro s _ t rfl hr hp
  rw [step_work hr, hostPart_presented hp]
  rfl

/-- Settles O7: the host's part of an idle lane is `h_rdata` at 0. -/
theorem stepWithoutTransactionRunsSequencer : Obligations.StepWithoutTransactionRunsSequencer := by
  unfold Obligations.StepWithoutTransactionRunsSequencer
  rintro s _ rfl hr hidle
  rw [step_work hr, hidle]
  rfl

/-! ## A placed word (R72, log entry 12) -/

@[simp] theorem accept_stim (op : Op) (s : State) : (accept op s).stim = s.stim := by
  simp [accept]

@[simp] theorem command_stim (op : Op) (s : State) : (command op s).stim = s.stim := by
  by_cases ho : s.op = .none
  · simp [command_idle ho]
  · simp [command_busy ho]

/-- No meaning uses up or lays out an input. -/
theorem exec_stim {i : Instr} {s a : State} (h : exec i s = .next a) : a.stim = s.stim := by
  obtain ⟨b, hb, hcases⟩ := exec_cases i s
  rw [hb] at h
  injection h with h
  subst h
  rcases hcases with rfl | ⟨op, -, rfl⟩ | ⟨-, rfl⟩ | ⟨d, -, rfl⟩ | ⟨c, -, rfl⟩ | ⟨v, -, rfl⟩
  · rfl
  all_goals simp

theorem tableWord_toNat (w : TxnWord) : tableWord 48 w.toNat = w := by
  have hlt := w.isLt
  apply BitVec.eq_of_toNat_eq
  simp only [tableWord, BitVec.toNat_ofNat]
  omega

theorem withFetchWord_toNat (s : State) (w : TxnWord) : s.withFetchWord 48 w.toNat = withTxn s w := by
  rw [State.withFetchWord, tableWord_toNat]

theorem withTxn_stim_tail (s : State) (w : TxnWord) : (withTxn s w).stim.tail = s.stim.tail := rfl

/-- A cycle of an idle block that presents the transaction of a word runs the instruction the word decodes to. -/
theorem step_withTxn_idle {s : State} (ho : s.op = .none) (w : TxnWord) :
    step (withTxn s w) = andThen (exec (decode w) (driveRdata 0 (withTxn s w))) fun s1 => .next (elapse s1) := by
  have hword : (⟨w.we, w.wa, w.data⟩ : Txn).word = w := txnWord_fields w
  have hop : (withTxn s w).op = .none := ho
  rw [step_work rfl, hostPart_presented rfl, hword]
  simp [hop]

/-- Settles O8: the placed word decodes to its instruction, whose meaning leaves the inputs of later cycles alone. -/
theorem placedWordIsRunByStep : Obligations.PlacedWordIsRunByStep := by
  unfold Obligations.PlacedWordIsRunByStep
  intro s i hwf ho
  rw [withFetchWord_toNat, step_withTxn_idle ho, decodeOfEncodeIsIdentity i hwf]
  obtain ⟨a, ha, -⟩ := exec_cases i (driveRdata 0 (withTxn s (encode i)))
  have hstim : a.stim.tail = s.stim.tail := by rw [exec_stim ha, driveRdata_stim, withTxn_stim_tail]
  rw [ha, andThen_of_next, andThen_of_next, elapse, hstim]

end Sys2Proof.Machine
end

section
/-!
PROOFS. The sequencer's part of a cycle, one equation for each kind of cycle (R94..R99), and the accepted commands (R112).
-/

namespace Sys2Proof.Machine

/-! ## One cycle of a segment -/

/-- A hold that is not over counts down (R95). -/
theorem sequencer_hold {s : State} {si ck : Bool} {d : HoldTime} (hc : currentSegment s = some (.hold si ck d))
    (ht : 0 < s.tcnt.toNat) (done : Bool) (data : Word) :
    sequencer done data s = .next { s with tcnt := s.tcnt - 1 } := by
  simp only [sequencer, hc, holdStep, ht, if_true]

/-- The last cycle of a hold (R95). -/
theorem sequencer_hold_end {s : State} {si ck : Bool} {d : HoldTime} (hc : currentSegment s = some (.hold si ck d))
    (ht : s.tcnt = 0) (done : Bool) (data : Word) : sequencer done data s = .next (advance s) := by
  simp [sequencer, hc, holdStep, ht]

/-- The request cycle of a sample segment (R96). -/
theorem sequencer_req {s : State} {i : Pixel} (hc : currentSegment s = some (.sample i)) (hs : s.sph = .req)
    (done : Bool) (data : Word) : sequencer done data s = .next { s with sph := .wait } := by
  simp only [sequencer, hc, sampleStep, hs]

/-- A WAIT cycle without an answer (R97). -/
theorem sequencer_unanswered {s : State} {i : Pixel} (hc : currentSegment s = some (.sample i)) (hs : s.sph = .wait)
    (data : Word) : sequencer false data s = .next s := by
  simp [sequencer, hc, sampleStep, hs]

/-- A WAIT cycle with an answer (R96). -/
theorem sequencer_answered {s : State} {i : Pixel} (hc : currentSegment s = some (.sample i)) (hs : s.sph = .wait)
    (data : Word) : sequencer true data s = .next (advance (storeSample i data s)) := by
  simp [sequencer, hc, sampleStep, hs]

/-- Settles O37: the equation of a hold that is not over. -/
theorem holdCountsDown : Obligations.HoldCountsDown := by
  unfold Obligations.HoldCountsDown
  intro s si ck d done data hc ht
  exact ⟨_, sequencer_hold hc ht done data, by bv_omega, rfl⟩

/-! ## Going on to the next segment -/

theorem ofNat_seg_succ (x : BitVec 10) : BitVec.ofNat 10 (x.toNat + 1) = x + 1 := by
  rw [BitVec.ofNat_add, BitVec.ofNat_toNat, BitVec.setWidth_eq]
  rfl

theorem advance_of_next {s : State} {g : Segment} (h : (prog s.op)[s.seg.toNat + 1]? = some g) :
    advance s = load (prog s.op) (s.seg.toNat + 1) s :=
  advance_more (List.getElem?_eq_some_iff.mp h).1.ne

/-- A segment that a hold follows (R94, R98). -/
theorem advance_of_hold {s : State} {si ck : Bool} {d : HoldTime}
    (h : (prog s.op)[s.seg.toNat + 1]? = some (.hold si ck d)) : advance s = { s with
      seg := s.seg + 1, si := si, sclk := ck, tcnt := BitVec.ofNat 32 (dur s.par d s.freq.toNat - 1),
      risecnt := if s.sclk = false ∧ ck = true then s.risecnt + 1 else s.risecnt } := by
  rw [advance_of_next h, load_hold h, ofNat_seg_succ]

/-- A segment that a sample follows (R94, R98). -/
theorem advance_of_sample {s : State} {i : Pixel} (h : (prog s.op)[s.seg.toNat + 1]? = some (.sample i)) :
    advance s = { s with seg := s.seg + 1, sph := .req } := by
  rw [advance_of_next h, load_sample h, ofNat_seg_succ]

/-- Settles O38: the last cycle of a hold is `advance`, which loads what follows. -/
theorem holdEndLoadsNextSegment : Obligations.HoldEndLoadsNextSegment := by
  unfold Obligations.HoldEndLoadsNextSegment
  intro s si ck d done data hc ht
  rw [sequencer_hold_end hc ht]
  refine ⟨fun si' ck' d' hn => ?_, fun i hn => by rw [advance_of_sample hn]⟩
  rw [advance_of_hold hn]
  cases d' <;> rfl

/-! ## The last segment -/

/-- Every program ends with a high half period (R106, R107). -/
theorem prog_last {op : Op} {k : Nat} (h : k + 1 = (prog op).length) :
    (prog op)[k]? = some (.hold false true .half) := by
  cases op with
  | none => simp at h
  | init =>
    obtain rfl : k = 267 := by simpa using h
    rw [prog_init_getElem?]; rfl
  | capture =>
    obtain rfl : k = 664 := by simpa using h
    rw [prog_capture_getElem?, capturePass_getElem?]; rfl

/-- The last cycle of a program ends its sequence (R99). -/
theorem sequencer_last {s : State} (hl : s.seg.toNat + 1 = (prog s.op).length) (ht : s.tcnt = 0) (done : Bool)
    (data : Word) : sequencer done data s = .next (finish s) := by
  rw [sequencer_hold_end (prog_last hl) ht, advance_last hl]

/-- Settles O39: the last cycle of a program is `finish`. -/
theorem lastSegmentEndsSequence : Obligations.LastSegmentEndsSequence := by
  unfold Obligations.LastSegmentEndsSequence
  intro s done data ht
  refine ⟨fun ho hseg => ?_, fun ho hseg => ?_⟩
  · rw [sequencer_last (by rw [ho, hseg, prog_init_length]) ht]
    simp [finish, ho]
  · rw [sequencer_last (by rw [ho, hseg, prog_capture_length]) ht]
    simp [finish, ho]

/-! ## The sample segment -/

/-- After Sample(i) the sensor clock goes low for one half period (R107). -/
theorem prog_after_sample (i : Pixel) : (prog .capture)[277 + 3 * i.val + 1]? = some (.hold false false .half) := by
  have hi := i.isLt
  rw [prog_capture_getElem?, if_neg (by omega), if_neg (by omega), capturePass_getElem?]
  by_cases hlast : i.val = 127
  · rw [hlast]; rfl
  · have hphase : (277 + 3 * i.val + 1 - 269 - 6) % 3 = 0 := by omega
    rw [if_neg (by omega), if_pos (by omega), hphase]; rfl

/-- Where the ADC's answer is stored, the lines go low and the next half period begins (R96, R98). -/
theorem advance_storeSample {s : State} {i : Pixel} (hc : currentSegment s = some (.sample i)) (data : Word) :
    advance (storeSample i data s) = { s with
      frame := (storeSample i data s).frame, sampcnt := s.sampcnt + 1, seg := s.seg + 1, si := false, sclk := false,
      tcnt := BitVec.ofNat 32 (halfcyc s.par s.freq.toNat - 1) } := by
  obtain ⟨hop, hseg⟩ := currentSegment_eq_sample.mp hc
  have hn : (prog s.op)[s.seg.toNat + 1]? = some (.hold false false .half) := by
    rw [hop, hseg]; exact prog_after_sample i
  rw [advance_of_hold (s := storeSample i data s) hn]
  simp [storeSample, dur]

/-- The stored sample is the low ADC_W bits of the answer (R96). -/
theorem lowBits_toNat (w : Nat) (v : Word) : (lowBits w v).toNat = v.toNat % 2 ^ w := by
  have hle := Nat.mod_le v.toNat (2 ^ w)
  have hlt := v.isLt
  simp only [lowBits, BitVec.toNat_ofNat]
  omega

/-- Settles O40: the request, the WAIT without an answer and the answered WAIT. -/
theorem sampleHandshake : Obligations.SampleHandshake := by
  unfold Obligations.SampleHandshake
  intro s i done data hop hseg
  have hc : currentSegment s = some (.sample i) := currentSegment_eq_sample.mpr ⟨hop, hseg⟩
  refine ⟨fun hs => ⟨adcStart_of_req hc hs, sequencer_req hc hs done data⟩, ?_, ?_⟩
  · rintro hs rfl
    exact sequencer_unanswered hc hs data
  · rintro hs rfl
    refine ⟨_, sequencer_answered hc hs data, ?_⟩
    rw [advance_storeSample hc]
    exact ⟨⟨_, storeSample_same i data s, lowBits_toNat _ _⟩, fun j hj => storeSample_other hj data s, rfl⟩

/-! ## Accepted commands -/

/-- Settles O15: an accepted INIT. -/
theorem initAcceptedWhenIdle : Obligations.InitAcceptedWhenIdle := by
  unfold Obligations.InitAcceptedWhenIdle
  intro s ho
  have hinit : exec .init s = .next (command .init s) := rfl
  rw [hinit, command_idle ho, accept_eq (by decide)]
  simp

/-- Settles O16: an accepted CAPTURE. -/
theorem captureAcceptedWhenIdle : Obligations.CaptureAcceptedWhenIdle := by
  unfold Obligations.CaptureAcceptedWhenIdle
  intro s ho
  have hcapture : exec .capture s = .next (command .capture s) := rfl
  rw [hcapture, command_idle ho, accept_eq (by decide)]
  simp

end Sys2Proof.Machine
end

section
/-!
PROOFS. Frequencies (R84..R87): the clamp of a FREQ write, and the half period and the settle delay in seconds.
-/

namespace Sys2Proof.Machine

/-- FREQ after a write is the clamped signed operand (R85, R115). -/
theorem writeFreq_freq_eq (d : Word) (s : State) :
    ((writeFreq d s).freq.toNat : Int) = if 1 ≤ d.toInt ∧ d.toInt ≤ 500000 then d.toInt else 500000 := by
  rw [writeFreq_freq, clampFreq_toNat, clampf_eq, sint32]

/-- Settles O18: the clamp, and FREQ after the write. -/
theorem setclkClampsFrequency : Obligations.SetclkClampsFrequency := by
  unfold Obligations.SetclkClampsFrequency
  refine ⟨fun v => ?_, fun s d => ⟨_, exec_setclk d s, ?_⟩⟩
  · have hclamp := clampf_eq v
    split_ifs at hclamp <;> omega
  · have hfreq := writeFreq_freq_eq d s
    refine ⟨?_, ?_, rfl⟩ <;> split_ifs at hfreq <;> omega

/-! ## Realised times -/

/-- A time of `1 / b` seconds, in clock cycles rounded up, is not shorter and longer by less than one cycle (R86, R87). -/
theorem ceilDiv_seconds {F b : Nat} (hF : 0 < F) (hb : 0 < b) :
    (1 / b : Rat) ≤ (ceilDiv F b : Rat) / F ∧ (ceilDiv F b : Rat) / F < 1 / b + 1 / F := by
  obtain ⟨hcover, hnext⟩ := ceilDiv_cover F b hb
  have hF' : (0 : Rat) < F := by exact_mod_cast hF
  have hb' : (0 : Rat) < b := by exact_mod_cast hb
  constructor
  · rw [div_le_div_iff₀ hb' hF', one_mul]
    exact_mod_cast hcover
  · rw [div_add_div _ _ hb'.ne' hF'.ne', div_lt_div_iff₀ hF' (by positivity)]
    have hnext' : (ceilDiv F b : Rat) * b < F + b := by exact_mod_cast hnext
    nlinarith

/-- The settle delay is `ceil_div(F_SYS, 100 000)` (R16). -/
theorem settlecyc_eq_ceilDiv {p : Config.Params} (hp : p.wf) : settlecyc p = ceilDiv p.fSys 100000 :=
  (settlecyc_range hp).1

/-- SETTLECYC fits its 32-bit register (R16, R122). -/
theorem settlecycWord_toNat {s : State} (hp : s.par.wf) : (settlecycWord s).toNat = settlecyc s.par := by
  have hrange := (settlecyc_range hp).2
  simp only [settlecycWord, BitVec.toNat_ofNat]
  omega

/-- Settles O28: SETTLECYC is the ceiling of F_SYS / 100 000. -/
theorem settlecycIsLeastCover : Obligations.SettlecycIsLeastCover := by
  unfold Obligations.SettlecycIsLeastCover
  refine ⟨by decide, fun s hp => ⟨driveRdata (settlecycWord s) s, rfl, rfl, ?_⟩⟩
  have hF : 0 < s.par.fSys := by have h := hp.1; omega
  obtain ⟨-, hlow, hhigh⟩ := settlecyc_range hp
  have hseconds := ceilDiv_seconds (b := 100000) hF (by decide)
  rw [driveRdata_hRdata, settlecycWord_toNat hp]
  refine ⟨fun _ => rfl, ?_, fun q hq => ?_, hlow, hhigh, ?_⟩
  · rw [settlecyc_eq_ceilDiv hp]; exact (ceilDiv_cover _ _ (by decide)).1
  · rw [settlecyc_eq_ceilDiv hp]; exact ceilDiv_least (by decide) hq
  · rw [settlecyc_eq_ceilDiv hp]; exact_mod_cast hseconds

/-- The frequency realised by the half period does not exceed FREQ (R86). -/
theorem realised_frequency_le {p : Config.Params} (hp : p.wf) {f : Nat} (h1 : 1 ≤ f) (h2 : f ≤ 500000) :
    (p.fSys : Rat) / (2 * halfcyc p f) ≤ f := by
  have hpos : 0 < halfcyc p f := (halfcyc_range hp h1 h2).1
  have hpos' : (0 : Rat) < 2 * halfcyc p f := by exact_mod_cast Nat.mul_pos (by decide) hpos
  have hcover : p.fSys ≤ halfcyc p f * (2 * f) := (ceilDiv_cover _ _ (by omega)).1
  rw [div_le_iff₀ hpos']
  calc (p.fSys : Rat) ≤ halfcyc p f * (2 * f) := by exact_mod_cast hcover
    _ = f * (2 * halfcyc p f) := by ring

/-- Settles O29: HALFCYC is the ceiling of F_SYS × ClockPeriod. -/
theorem realisedHalfPeriodBounds : Obligations.RealisedHalfPeriodBounds := by
  unfold Obligations.RealisedHalfPeriodBounds
  intro s hp h1 h2
  have hF : 0 < s.par.fSys := by have h := hp.1; omega
  have hseconds := ceilDiv_seconds (b := 2 * s.freq.toNat) hF (by omega)
  have hfreq := realised_frequency_le hp h1 h2
  have hmax : (s.freq.toNat : Rat) ≤ 500000 := by exact_mod_cast h2
  refine ⟨driveRdata (halfcycWord s) s, rfl, ?_⟩
  rw [driveRdata_hRdata, halfcycWord_toNat hp h1 h2]
  push_cast at hseconds
  exact ⟨rfl, hseconds.1, hseconds.2, hfreq, hfreq.trans hmax, (halfcyc_range hp h1 h2).1⟩

end Sys2Proof.Machine
end

section
/-!
PROOFS. The host's part and the sequencer's part of a cycle write apart (R100, R102..R104), and the outputs of a cycle (R101).
-/

namespace Sys2Proof.Machine

/-! ## What each part leaves alone (R103) -/

/-- A meaning during a sequence writes FREQ, the error elements and the read data alone (R103). -/
theorem exec_running (i : Instr) {s : State} (ho : s.op ≠ .none) :
    ∃ f e ov c v, exec i s = .next { s with freq := f, err := e, errovf := ov, errcause := c, hRdata := v } := by
  obtain ⟨t, ht, hcases⟩ := exec_cases i s
  rw [ht]
  rcases hcases with rfl | ⟨op, -, rfl⟩ | ⟨-, rfl⟩ | ⟨d, -, rfl⟩ | ⟨c, -, rfl⟩ | ⟨v, -, rfl⟩
  · exact ⟨_, _, _, _, _, rfl⟩
  · rw [command_busy ho, raiseHostError_eq]; exact ⟨_, _, _, _, _, rfl⟩
  · exact ⟨_, _, _, _, _, rfl⟩
  · exact ⟨_, _, _, _, _, rfl⟩
  · rw [raiseHostError_eq]; exact ⟨_, _, _, _, _, rfl⟩
  · exact ⟨_, _, _, _, _, rfl⟩

/-- The sequencer's part never writes what the host's part may write during a sequence, nor FNOINIT and the model's own
fields (R103). -/
theorem sequencer_keeps_host_elements {done : Bool} {data : Word} {s t : State} (h : sequencer done data s = .next t) :
    t.freq = s.freq ∧ t.err = s.err ∧ t.errovf = s.errovf ∧ t.errcause = s.errcause ∧ t.fnoinit = s.fnoinit ∧
    t.hRdata = s.hRdata ∧ t.par = s.par ∧ t.stim = s.stim ∧ t.cycle = s.cycle := by
  rcases sequencer_cases h with ⟨_, _, _, _, _, rfl⟩ | ⟨_, _, _, _, _, rfl⟩ | ⟨_, _, _, rfl⟩ | ⟨_, _, _, _, rfl⟩ |
    ⟨_, _, _, _, rfl⟩ <;> simp

/-- A cycle of an idle block is the host's part alone (R102). -/
theorem runCycle_idle {inp : CycleInput} {s a : State} (hr : inp.rst = false) (ho : s.op = .none)
    (ha : hostPart inp.host s = .next a) : runCycle inp s = .next (elapse a) := by
  rw [runCycle_work hr, ha, andThen_of_next, sequencerPart_busy_eq, if_pos ho, andThen_of_next]

/-- A cycle of a running sequence is the host's part and then the sequencer's (R102). -/
theorem runCycle_running {inp : CycleInput} {s a : State} (hr : inp.rst = false) (ho : s.op ≠ .none)
    (ha : hostPart inp.host s = .next a) :
    runCycle inp s = andThen (sequencer inp.adcDone inp.adcData a) fun b => .next (elapse b) := by
  rw [runCycle_work hr, ha, andThen_of_next, sequencerPart_busy_eq, if_neg ho]

theorem hostPart_txn {inp : CycleInput} {u : Txn} (hh : inp.host = .txn u) (s : State) :
    hostPart inp.host s = exec (decode u.word) (driveRdata 0 s) := by
  rw [hh, hostPart_presented rfl]

/-- Settles O41: what each part may write, and the idle cycle. -/
theorem hostAndSequencerWriteApart : Obligations.HostAndSequencerWriteApart := by
  unfold Obligations.HostAndSequencerWriteApart
  refine ⟨fun i s ho => ?_, fun s t done data h => sequencer_keeps_host_elements h, ?_⟩
  · obtain ⟨f, e, ov, c, v, h⟩ := exec_running i ho
    exact ⟨_, h, rfl⟩
  · intro s a t inp u hr hh ha ht ho
    rw [runCycle_idle hr ho ((hostPart_txn hh s).trans ha)] at ht
    injection ht with ht
    exact ht.symm

/-- Settles O43: a transaction that is no FREQ write makes the cycle calm. -/
theorem onlyFreqWriteTouchesRunningSequence : Obligations.OnlyFreqWriteTouchesRunningSequence := by
  unfold Obligations.OnlyFreqWriteTouchesRunningSequence
  intro s b inp u ho hr hh hfreq hb
  have hcalm : calm inp = true := by
    simpa [calm, hr, hh, presented, ← Bool.not_eq_true, ← not_and_or] using hfreq
  obtain ⟨e, ov, c, v, ha⟩ := hostPart_calm ho hcalm
  rw [runCycle_running (inp := { inp with host := .idle }) (a := driveRdata 0 s) hr ho rfl, andThen_next] at hb
  obtain ⟨b', hseq, hb⟩ := hb
  injection hb with hb
  have hseq' := sequencer_host_elements inp.adcDone inp.adcData (driveRdata 0 s) e ov c v
  rw [hseq, andThen_of_next] at hseq'
  refine ⟨elapse { b' with err := e, errovf := ov, errcause := c, hRdata := v }, ?_, by rw [← hb]; rfl⟩
  rw [runCycle_running hr ho ha]
  exact congrArg (andThen · _) hseq'

/-! ## A FREQ write during a sequence (R100) -/

/-- The host's part of a FREQ write (R115). -/
theorem hostPart_writeFreq {inp : CycleInput} {d : Word} (hh : inp.host = .txn ⟨true, 0x01, d⟩) (s : State) :
    hostPart inp.host s = .next (writeFreq d (driveRdata 0 s)) := by
  rw [hostPart_txn hh, decode_word]; rfl

/-- Settles O44: the sequencer's part runs on the state with the new FREQ, which only a loaded hold reads. -/
theorem newPeriodFromNextLoad : Obligations.NewPeriodFromNextLoad := by
  unfold Obligations.NewPeriodFromNextLoad
  intro s inp d si ck h hp hr hh hc
  have hrun := runCycle_running hr (currentSegment_lt hc).1 (hostPart_writeFreq hh s)
  refine ⟨fun ht => ?_, fun si' ck' ht hn => ?_⟩
  · rw [hrun, sequencer_hold (s := writeFreq d (driveRdata 0 s)) hc ht]
    exact ⟨_, rfl, rfl, rfl, rfl, rfl, by simp only [elapse_tcnt, writeFreq_tcnt, driveRdata_tcnt]; bv_omega⟩
  · have hseg : (s.seg + 1).toNat = s.seg.toNat + 1 := by rw [← ofNat_seg_succ, segIndex_toNat hn]
    rw [hrun, sequencer_hold_end (s := writeFreq d (driveRdata 0 s)) hc ht,
      advance_of_hold (s := writeFreq d (driveRdata 0 s)) hn]
    refine ⟨_, rfl, hseg, rfl, rfl, ?_⟩
    have htimer := timer_toNat_succ hp (clampFreq_range (sint32 d)) .half
    have hfreq : (clampFreq (sint32 d)).toNat =
        if 1 ≤ d.toInt ∧ d.toInt ≤ 500000 then d.toInt.toNat else 500000 := clampFreq_toNat _
    exact htimer.trans (congrArg (halfcyc s.par) hfreq)

/-! ## The outputs of a cycle (R101) -/

/-- A request is shown in the request phase of a sample segment (R101, R108). -/
theorem adcStart_iff (s : State) :
    adcStart s = true ↔ s.op = .capture ∧ s.sph = .req ∧ ∃ i : Pixel, s.seg.toNat = 277 + 3 * i.val := by
  rw [adcStart, Bool.and_eq_true, adcBusy_iff, decide_eq_true_eq, and_assoc, and_comm (b := s.sph = .req)]

@[simp] theorem accept_hRdata (op : Op) (s : State) : (accept op s).hRdata = s.hRdata := by
  simp [accept]

@[simp] theorem cmdWrite_hRdata (d : Word) (s : State) : (cmdWrite d s).hRdata = s.hRdata := by
  simp only [cmdWrite]
  split_ifs <;> simp

/-- No write drives the read data (R101). -/
@[simp] theorem busWrite_hRdata (wa : WordAddr) (d : Word) (s : State) : (busWrite wa d s).hRdata = s.hRdata := by
  unfold busWrite
  split_ifs <;> simp

/-- What a transaction leaves on `h_rdata` (R101, R118). -/
theorem exec_decode_hRdata {u : Txn} {s a : State} (h : exec (decode u.word) (driveRdata 0 s) = .next a) :
    a.hRdata = if u.we then 0 else busRead u.wa s := by
  rw [decode_word] at h
  split_ifs at h ⊢ with hwe
  · rw [exec_decodeWrite] at h
    injection h with h
    rw [← h, busWrite_hRdata, driveRdata_hRdata]
  · rw [exec_decodeRead] at h
    injection h with h
    rw [← h, driveRdata_hRdata]; rfl

theorem hostPart_hRdata {inp : CycleInput} {s a : State} (hr : inp.rst = false) (h : hostPart inp.host s = .next a) :
    a.hRdata = rdataOut inp s := by
  rcases hostPart_cases h with ⟨hp, rfl⟩ | ⟨u, hp, he⟩
  · simp [rdataOut, hr, hp]
  · simp [rdataOut, hr, hp, exec_decode_hRdata he]

/-- The next state shows the read data of the cycle (log entry 3). -/
theorem step_hRdata {s t : State} (h : step s = .next t) : t.hRdata = rdataOut (nextInput s) s := by
  rcases step_cases h with ⟨hr, rfl⟩ | ⟨hr, -, a, ha, rfl⟩ | ⟨hr, -, a, b, ha, hb, rfl⟩
  · simp [rdataOut, hr, resetCycle, State.resetOf]
  · rw [elapse_hRdata, hostPart_hRdata hr ha]
  · obtain ⟨-, -, -, -, -, hkeep, -⟩ := sequencer_keeps_host_elements hb
    exact hkeep.trans (hostPart_hRdata hr ha)

/-- Settles O12: the ports, and `rdataOut` case by case. -/
theorem cycleOutputs : Obligations.CycleOutputs := by
  unfold Obligations.CycleOutputs
  refine ⟨fun s => ⟨rfl, rfl, busy_iff s, adcStart_iff s⟩, fun s t h => ?_⟩
  have hdata := step_hRdata h
  refine ⟨hdata.symm, fun wa d hr hp => ?_, ?_⟩
  · simp [hdata, rdataOut, hr, hp]
  · rintro (hr | hp | ⟨wa, d, hp⟩)
    · simp [hdata, rdataOut, hr]
    · simp [hdata, rdataOut, hp]
    · simp [hdata, rdataOut, hp]

end Sys2Proof.Machine
end

section
/-!
PROOFS. SI changes only with the sensor clock low (R155), and a sample segment that is not answered lasts (R97).
-/

namespace Sys2Proof.Machine

/-! ## SI and the sensor clock (R155) -/

/-- Where SI changes between two segments, the second drives the sensor clock low (R91, R106, R107). -/
theorem sclk_low_of_siAt_ne {op : Op} {k : Nat} {si ck : Bool} {d : HoldTime}
    (h : (prog op)[k + 1]? = some (.hold si ck d)) (hne : si ≠ siAt op k) : ck = false := by
  cases op with
  | none => simp at h
  | init => rw [prog_init_getElem?] at h; grind [siAt]
  | capture => rw [prog_capture_getElem?, prog_init_getElem?, capturePass_getElem?] at h; grind [siAt]

/-- The host's part writes SI only by accepting a command, which drives the sensor clock low (R94, R112). -/
theorem hostPart_si {h : HostLane} {s a : State} (hh : hostPart h s = .next a) : a.si = s.si ∨ a.sclk = false := by
  rcases hostPart_effects hh with ⟨v, rfl⟩ | rfl | ⟨c, -, rfl⟩ | ⟨op, hop, -, rfl⟩ | ⟨u, d, -, -, -, rfl⟩
  · exact .inl rfl
  · exact .inl rfl
  · exact .inl (raiseHostError_si _ _)
  · rw [accept_eq hop]; exact .inr rfl
  · exact .inl rfl

/-- Settles O54: reset and acceptance drive the sensor clock low, and so does the segment that changes SI. -/
theorem siChangesWithClockLow : Obligations.SiChangesWithClockLow := by
  unfold Obligations.SiChangesWithClockLow
  intro s t hl h hne
  rcases step_cases h with ⟨-, rfl⟩ | ⟨-, -, a, ha, rfl⟩ | ⟨hr, ho, -⟩
  · rfl
  · exact (hostPart_si ha).resolve_left hne
  · have hsi : s.si = siAt s.op s.seg.toNat := (hl.onTrack ho s.stim).lines
    cases (step_move ho hr h).1 with
    | hold next => exact sclk_low_of_siAt_ne next (hsi ▸ hne)
    | stay _ _ si | sample _ _ _ _ si | finish _ _ _ si => exact absurd si hne

/-! ## A sample segment that is not answered (R97) -/

/-- `t` is `s` but for FREQ, the error elements, the read data and the model's bookkeeping of the cycle. -/
def SameSequence (s t : State) : Prop :=
  t = { s with
    freq := t.freq, err := t.err, errovf := t.errovf, errcause := t.errcause, hRdata := t.hRdata, stim := t.stim,
    cycle := t.cycle }

theorem SameSequence.trans {s t u : State} (h : SameSequence s t) (h' : SameSequence t u) : SameSequence s u := by
  unfold SameSequence at h h' ⊢
  rw [h', h]

/-- A WAIT cycle without an answer leaves the sequence as it is, whatever the host presents (R97). -/
theorem step_unanswered {s : State} {i : Pixel} {o : Option Txn} (hc : currentSegment s = some (.sample i))
    (hs : s.sph = .wait) (hr : (nextInput s).rst = false) (hd : (nextInput s).adcDone = false)
    (hp : presented (nextInput s).host = .next o) :
    ∃ t, step s = .next t ∧ SameSequence s t ∧ t.stim = s.stim.tail := by
  have ho : s.op ≠ .none := (currentSegment_lt hc).1
  obtain ⟨a, ha⟩ := hostPart_total (s := s) hp
  obtain ⟨f, e, ov, c, v, heq⟩ := hostPart_running ho ha
  have hca : currentSegment a = some (.sample i) := by rw [heq]; exact hc
  have hsa : a.sph = .wait := by rw [heq]; exact hs
  have hrun := runCycle_running hr ho ha
  rw [hd, sequencer_unanswered hca hsa] at hrun
  exact ⟨elapse a, hrun, by rw [heq]; rfl, by rw [heq]; rfl⟩

/-- Any number of such cycles (R97, U5). -/
theorem run_unanswered {i : Pixel} {rest : List CycleInput} : ∀ {ins : List CycleInput} {s : State},
    s.stim = ins ++ rest → currentSegment s = some (.sample i) → s.sph = .wait →
    (∀ inp ∈ ins, inp.rst = false ∧ inp.adcDone = false ∧ ∃ o, presented inp.host = .next o) →
    ∃ t, run ins.length s = .next t ∧ SameSequence s t := by
  intro ins
  induction ins with
  | nil => intro s _ _ _ _; exact ⟨s, rfl, rfl⟩
  | cons inp ins ih =>
    intro s hstim hc hs hin
    have hnext : nextInput s = inp := by simp [nextInput, hstim]
    obtain ⟨hr, hd, o, hp⟩ := hin inp List.mem_cons_self
    obtain ⟨t, hst, hsame, htail⟩ := step_unanswered hc hs (hnext ▸ hr) (hnext ▸ hd) (hnext ▸ hp)
    have hct : currentSegment t = some (.sample i) := by rw [hsame]; exact hc
    have hwt : t.sph = .wait := by rw [hsame]; exact hs
    obtain ⟨u, hu, hsame'⟩ := ih (by rw [htail, hstim]; rfl) hct hwt fun j hj => hin j (List.mem_cons_of_mem _ hj)
    refine ⟨u, ?_, hsame.trans hsame'⟩
    rw [List.length_cons, run_succ, hst, andThen_of_next, hu]

/-- Settles O55: the cycles without an answer leave the whole sequence as it is. -/
theorem unansweredSampleHangs : Obligations.UnansweredSampleHangs := by
  unfold Obligations.UnansweredSampleHangs
  intro ins s i hop hseg hs hin
  have hc : currentSegment { s with stim := ins ++ s.stim } = some (.sample i) :=
    currentSegment_eq_sample.mpr ⟨hop, hseg⟩
  obtain ⟨t, hrun, hsame⟩ := run_unanswered (rest := s.stim) rfl hc hs hin
  have hwt : t.sph = .wait := by rw [hsame]; exact hs
  have hopt : t.op = .capture := by rw [hsame]; exact hop
  refine ⟨t, hrun, hopt, by rw [hsame], hwt, by rw [hsame], by rw [hsame], by rw [hsame], by rw [hsame], by rw [hsame],
    (busy_iff t).mpr (by simp [hopt]), adcStart_of_wait hwt⟩

end Sys2Proof.Machine
end

section
/-!
PROOFS. A calm sequence cycle by cycle, from acceptance to its end (R104, R113, R114, R159, R160).
-/

namespace Sys2Proof.Machine

/-! ## The sequencer's part within a sequence and at its end -/

/-- `advance` within a sequence leaves INITD and FVALID (R98). -/
theorem advance_flags {s : State} {g : Segment} (hc : currentSegment s = some g) (hrun : (advance s).op ≠ .none) :
    (advance s).initd = s.initd ∧ (advance s).fvalid = s.fvalid := by
  rcases advance_cases hc with ⟨-, e⟩ | ⟨si, ck, d, -, e⟩ | ⟨i, -, e⟩
  · rw [e] at hrun; exact absurd rfl hrun
  · rw [e]; exact ⟨rfl, rfl⟩
  · rw [e]; exact ⟨rfl, rfl⟩

/-- The sequencer's part within a sequence leaves INITD and FVALID (R32, R33). -/
theorem sequencer_flags {done : Bool} {data : Word} {s u : State} (h : sequencer done data s = .next u)
    (hrun : u.op ≠ .none) : u.initd = s.initd ∧ u.fvalid = s.fvalid := by
  rcases sequencer_cases h with ⟨_, _, _, _, _, rfl⟩ | ⟨_, _, _, hc, _, rfl⟩ | ⟨_, _, _, rfl⟩ | ⟨i, hc, _, _, rfl⟩ |
    ⟨_, _, _, _, rfl⟩
  · exact ⟨rfl, rfl⟩
  · exact advance_flags hc hrun
  · exact ⟨rfl, rfl⟩
  · exact advance_flags (s := storeSample i data s) hc hrun
  · exact ⟨rfl, rfl⟩

/-- The sequencer's part of an INIT leaves FRAME (R53, R108). -/
theorem sequencer_frame_of_init {done : Bool} {data : Word} {s u : State} (h : sequencer done data s = .next u)
    (hop : s.op = .init) : u.frame = s.frame := by
  rcases sequencer_frame h with hkeep | ⟨i, hc, -⟩
  · exact hkeep
  · cases hop.symm.trans (op_of_sample hc)

/-- A sequence ends in its last segment, by `finish` and nothing else (R98, R99). -/
theorem sequencer_end {done : Bool} {data : Word} {s u : State} (h : sequencer done data s = .next u)
    (hu : u.op = .none) : s.seg.toNat + 1 = (prog s.op).length ∧ u = finish s := by
  rcases sequencer_cases h with ⟨_, _, _, hc, _, rfl⟩ | ⟨_, _, _, hc, _, rfl⟩ | ⟨_, hc, _, rfl⟩ | ⟨i, hc, _, _, rfl⟩ |
    ⟨_, hc, _, _, rfl⟩
  · exact absurd hu (currentSegment_lt hc).1
  · rcases advance_place hc with ⟨hop, -⟩ | hlast
    · exact absurd (hop.symm.trans hu) (currentSegment_lt hc).1
    · exact hlast
  · exact absurd hu (currentSegment_lt hc).1
  · rcases advance_place (s := storeSample i data s) hc with ⟨hop, -⟩ | ⟨hlast, -⟩
    · exact absurd (hop.symm.trans hu) (currentSegment_lt hc).1
    · cases (prog_last hlast).symm.trans hc
  · exact absurd hu (currentSegment_lt hc).1

/-! ## The timer of a hold -/

/-- The timer of a hold is within the hold's duration (R94, R95). -/
def Timed (s : State) : Prop :=
  ∀ si ck d, currentSegment s = some (.hold si ck d) → s.tcnt.toNat < dur s.par d s.freq.toNat

theorem timed_advance {s : State} {g : Segment} (hc : currentSegment s = some g) (hp : s.par.wf)
    (hf : 1 ≤ s.freq.toNat ∧ s.freq.toNat ≤ 500000) : Timed (advance s) := by
  intro si ck d hcur
  rcases advance_cases hc with ⟨-, e⟩ | ⟨si', ck', d', hn, e⟩ | ⟨i, hn, e⟩
  · rw [e] at hcur; simp [currentSegment] at hcur
  · have hcur' : currentSegment (advance s) = some (.hold si' ck' d') := by
      rw [e]; simp only [currentSegment, segIndex_toNat hn, hn]
    cases hcur.symm.trans hcur'
    have htimer := timer_toNat_succ hp hf d
    rw [e]
    simp only
    omega
  · have hcur' : currentSegment (advance s) = some (.sample i) := by
      rw [e]; simp only [currentSegment, segIndex_toNat hn, hn]
    cases hcur.symm.trans hcur'

theorem Timed.sequencer {done : Bool} {data : Word} {s u : State} (ht : Timed s)
    (h : sequencer done data s = .next u) (hp : s.par.wf) (hf : 1 ≤ s.freq.toNat ∧ s.freq.toNat ≤ 500000) :
    Timed u := by
  rcases sequencer_cases h with ⟨_, _, _, _, hpos, rfl⟩ | ⟨_, _, _, hc, _, rfl⟩ | ⟨_, _, _, rfl⟩ | ⟨i, hc, _, _, rfl⟩ |
    ⟨_, _, _, _, rfl⟩
  · intro si ck d hcur
    have hlt : s.tcnt.toNat < dur s.par d s.freq.toNat := ht si ck d hcur
    have hdown : (s.tcnt - 1).toNat < s.tcnt.toNat := by bv_omega
    exact hdown.trans hlt
  · exact timed_advance hc hp hf
  · exact ht
  · exact timed_advance (s := storeSample i data s) hc hp hf
  · exact ht

/-! ## Where a sequence stands -/

/-- The sequence that runs in `a` is in `s` with `n` cycles to go, this one included (R104, R159, R160). -/
structure Underway (a : State) (n : Nat) (s : State) : Prop where
  legal : Legal s
  op : s.op = a.op
  par : s.par = a.par
  freq : s.freq = a.freq
  initd : s.initd = a.initd
  fvalid : s.fvalid = a.fvalid
  fnoinit : s.fnoinit = a.fnoinit
  frame : a.op = .init → s.frame = a.frame
  timed : Timed s
  left : cyclesLeft s = n

/-- The sequence that ran in `a` has ended in `t` (R99, R110, R113, R114). -/
structure Ended (a t : State) : Prop where
  legal : Legal t
  op : t.op = .none
  si : t.si = false
  sclk : t.sclk = true
  risecnt : t.risecnt.toNat = risingEdges false (prog a.op)
  sampcnt : t.sampcnt.toNat = sampleCount (prog a.op)
  initd : t.initd = (a.initd || decide (a.op = .init))
  fvalid : t.fvalid = (a.fvalid || decide (a.op = .capture))
  fnoinit : t.fnoinit = a.fnoinit
  frame : a.op = .init → t.frame = a.frame

/-- In a hold the lines have its levels (R31, R94). -/
theorem Legal.lines_of_hold {s : State} (h : Legal s) {si ck : Bool} {d : HoldTime}
    (hc : currentSegment s = some (.hold si ck d)) : s.si = si ∧ s.sclk = ck := by
  have hlines := h.lines (currentSegment_lt hc).1
  rw [linesAfter_take_succ hc rfl] at hlines
  exact Prod.mk.inj hlines

/-- In the last segment everything has been counted (R37, R38). -/
theorem Legal.counts_of_last {s : State} (h : Legal s) (hlast : s.seg.toNat + 1 = (prog s.op).length) :
    s.risecnt.toNat = risingEdges false (prog s.op) ∧ s.sampcnt.toNat = sampleCount (prog s.op) := by
  have hc := prog_last hlast
  have hrun : s.op ≠ .none := (currentSegment_lt hc).1
  have hsamples := sampleCount_take_succ hc
  rw [hlast, List.take_length, ← h.sampleCounted hrun] at hsamples
  exact ⟨by rw [h.riseCount hrun, hlast, List.take_length], hsamples.symm⟩

/-- The end of a sequence, with the error elements and the model's own fields as they may be. -/
theorem Underway.ended {a s t : State} {n : Nat} (h : Underway a n s) (hl : Legal t)
    (hlast : s.seg.toNat + 1 = (prog s.op).length) (ht : SameSequence (finish s) t) : Ended a t := by
  obtain ⟨hsi, hck⟩ := h.legal.lines_of_hold (prog_last hlast)
  obtain ⟨hrise, hsamp⟩ := h.legal.counts_of_last hlast
  have hop := h.op
  rw [hop] at hrise hsamp
  refine ⟨hl, ?_, ?_, ?_, ?_, ?_, ?_, ?_, ?_, fun hinit => ?_⟩ <;> rw [ht]
  · rfl
  · exact hsi
  · exact hck
  · exact hrise
  · exact hsamp
  · simp [h.initd, hop]
  · simp [h.fvalid, hop]
  · exact h.fnoinit
  · exact h.frame hinit

/-- One more calm cycle, with an ADC that answers at once: the sequence goes on, or it was its last. -/
theorem Underway.step {a s : State} {n : Nat} {inp : CycleInput} {rest : List CycleInput} (h : Underway a (n + 1) s)
    (hrun : a.op ≠ .none) (hs : s.stim = inp :: rest) (hcalm : calm inp = true)
    (hdone : a.op = .capture → inp.adcDone = true) :
    ∃ t, step s = .next t ∧ t.stim = rest ∧ (n = 0 ∧ Ended a t ∨ Underway a n t) := by
  have hrun' : s.op ≠ .none := h.op ▸ hrun
  obtain ⟨g, hg⟩ := currentSegment_of_legal h.legal hrun'
  obtain ⟨u, hu⟩ := sequencer_total (done := inp.adcDone) (data := inp.adcData) hg
  obtain ⟨e, ov, c, v, hst⟩ := step_calm hrun' hs hcalm hu
  have hlegal := stepKeepsLegalStates s _ h.legal hst
  have hcycles := sequencer_cyclesLeft hu (fun ho => hdone (h.op ▸ ho)) h.legal.params h.legal.freqLegal
  rw [h.left] at hcycles
  refine ⟨_, hst, rfl, ?_⟩
  rcases hcycles with ⟨hend, hone⟩ | ⟨hsame, -, hleft⟩
  · obtain ⟨hlast, rfl⟩ := sequencer_end hu hend
    exact .inl ⟨by omega, h.ended hlegal hlast rfl⟩
  · obtain ⟨hfreq, -, -, -, hfnoinit, -, hpar, -⟩ := sequencer_keeps_host_elements hu
    obtain ⟨hinitd, hfvalid⟩ := sequencer_flags hu (hsame ▸ hrun')
    have htimed : Timed u := h.timed.sequencer hu h.legal.params h.legal.freqLegal
    exact .inr {
      legal := hlegal
      op := hsame.trans h.op
      par := hpar.trans h.par
      freq := hfreq.trans h.freq
      initd := hinitd.trans h.initd
      fvalid := hfvalid.trans h.fvalid
      fnoinit := hfnoinit.trans h.fnoinit
      frame := fun hinit => (sequencer_frame_of_init hu (h.op.trans hinit)).trans (h.frame hinit)
      timed := htimed
      left := (Nat.succ.inj hleft).symm }

/-! ## The cycles of a calm sequence -/

theorem run_add_one (n : Nat) (s : State) : run (n + 1) s = andThen (run n s) step := by
  have hone : run 1 = step := funext fun t => by
    rw [run_succ 0]
    cases step t <;> rfl
  rw [run_add, hone]

theorem cyclesLeft_pos (s : State) : 0 < cyclesLeft s := by
  unfold cyclesLeft segCyclesLeft
  split_ifs <;> omega

section
variable {a s : State} {ins : List CycleInput} (hrun : a.op ≠ .none) (h : Underway a ins.length s) (hs : s.stim = ins)
  (hin : ∀ inp ∈ ins, calm inp = true ∧ (a.op = .capture → inp.adcDone = true))
include hrun h hs hin

/-- Until its inputs are used up, a sequence has as many cycles to go as there are inputs. -/
theorem run_underway : ∀ m < ins.length, ∃ u, run m s = .next u ∧ u.stim = ins.drop m ∧
    Underway a (ins.length - m) u := by
  intro m
  induction m with
  | zero => exact fun _ => ⟨s, rfl, hs, h⟩
  | succ m ih =>
    intro hm
    obtain ⟨u, hu, hstim, hway⟩ := ih (by omega)
    obtain ⟨n, hn⟩ : ∃ n, ins.length - m = n + 1 := ⟨ins.length - (m + 1), by omega⟩
    obtain ⟨hcalm, hdone⟩ := hin _ (List.getElem_mem (show m < ins.length by omega))
    rw [List.drop_eq_getElem_cons (by omega)] at hstim
    obtain ⟨t, ht, htail, hcase⟩ := (hn ▸ hway).step hrun hstim hcalm hdone
    refine ⟨t, by rw [run_add_one, hu, andThen_of_next, ht], htail, ?_⟩
    obtain rfl : n = ins.length - (m + 1) := by omega
    exact hcase.resolve_left fun hlast => by omega

/-- With its inputs a sequence ends. -/
theorem run_ended : ∃ t, run ins.length s = .next t ∧ Ended a t := by
  have hpos : 0 < ins.length := h.left ▸ cyclesLeft_pos s
  obtain ⟨m, hm⟩ : ∃ m, ins.length = m + 1 := ⟨ins.length - 1, by omega⟩
  obtain ⟨u, hu, hstim, hway⟩ := run_underway hrun h hs hin m (by omega)
  obtain ⟨hcalm, hdone⟩ := hin _ (List.getElem_mem (show m < ins.length by omega))
  rw [List.drop_eq_getElem_cons (by omega)] at hstim
  rw [show ins.length - m = 0 + 1 by omega] at hway
  obtain ⟨t, ht, -, hcase⟩ := hway.step hrun hstim hcalm hdone
  have hend : Ended a t := by
    rcases hcase with ⟨-, hend⟩ | hmore
    · exact hend
    · exact absurd hmore.left (cyclesLeft_pos t).ne'
  exact ⟨t, by rw [hm, run_add_one, hu, andThen_of_next, ht], hend⟩

end

/-! ## From acceptance to the end -/

/-- An accepted sequence has the cycles of its program to go. -/
theorem underway_accepted {op : Op} (hop : op ≠ .none) {s : State} (hl : Legal s) {n : Nat}
    (hn : n = listCycles s.par s.freq.toNat (prog op)) : Underway (accepted op s) n (accepted op s) where
  legal := ((hl.driveRdata 0).accept hop).elapse
  op := rfl
  par := rfl
  freq := rfl
  initd := rfl
  fvalid := rfl
  fnoinit := rfl
  frame _ := rfl
  timed si ck d hc := by
    cases hc.symm.trans (currentSegment_accepted hop s)
    have htimer := timer_toNat_succ hl.params hl.freqLegal .half
    rw [accepted_eq hop]
    exact Nat.lt_of_succ_le htimer.le
  left := (cyclesLeft_accepted hop hl.params hl.freqLegal).trans hn.symm

/-- A legal idle block that is presented a command runs it in the cycles of its program, where the following inputs are calm
and the ADC answers at once (R159, R160). -/
theorem Legal.run_of_command {op : Op} (hop : op ≠ .none) {s : State} {first : CycleInput}
    {ins : List CycleInput} {u : Txn} (hl : Legal s) (ho : s.op = .none) (hr : first.rst = false)
    (hh : first.host = .txn u) (hd : ∀ a, exec (decode u.word) a = .next (command op a))
    (hin : ∀ inp ∈ ins, calm inp = true ∧ (op = .capture → inp.adcDone = true))
    (hlen : ins.length = listCycles s.par s.freq.toNat (prog op)) :
    (∀ m < ins.length, ∃ t, run (1 + m) { s with stim := first :: ins } = .next t ∧
      Underway (accepted op { s with stim := first :: ins }) (ins.length - m) t) ∧
    ∃ t, run (1 + ins.length) { s with stim := first :: ins } = .next t ∧
      Ended (accepted op { s with stim := first :: ins }) t := by
  have hl' : Legal { s with stim := first :: ins } :=
    hl.with_unconstrained s.sph s.initd s.fnoinit s.hRdata (first :: ins) s.cycle
  have hstep := step_accepts (ins := ins) ho hr hh hd
  have hway := underway_accepted hop hl' hlen
  have hop' : (accepted op { s with stim := first :: ins }).op = op := by rw [accepted_eq hop]
  have hstim : (accepted op { s with stim := first :: ins }).stim = ins := by rw [accepted_eq hop]; rfl
  have hin' : ∀ inp ∈ ins, calm inp = true ∧
      ((accepted op { s with stim := first :: ins }).op = .capture → inp.adcDone = true) := by rwa [hop']
  have hrun (m : Nat) : run (1 + m) { s with stim := first :: ins } =
      run m (accepted op { s with stim := first :: ins }) := by
    rw [Nat.add_comm, run_succ, hstep, andThen_of_next]
  refine ⟨fun m hm => ?_, ?_⟩
  · obtain ⟨t, ht, -, hwayt⟩ := run_underway (hop'.symm ▸ hop) hway hstim hin' m hm
    exact ⟨t, (hrun m).trans ht, hwayt⟩
  · obtain ⟨t, ht, hend⟩ := run_ended (hop'.symm ▸ hop) hway hstim hin'
    exact ⟨t, (hrun _).trans ht, hend⟩

/-! ## The segments of an INIT -/

/-- Every segment of INIT lasts one half period (R106). -/
theorem listCycles_drop_init (p : Config.Params) (f k : Nat) :
    listCycles p f ((prog .init).drop k) = (268 - k) * halfcyc p f := by
  have hsame : ∀ n ∈ ((prog .init).drop k).map (segCycles p f), n = halfcyc p f := by
    intro n hn
    obtain ⟨g, hg, rfl⟩ := List.mem_map.mp hn
    obtain ⟨j, hj⟩ := List.mem_iff_getElem?.mp (List.mem_of_mem_drop hg)
    rw [prog_init_getElem?] at hj
    split_ifs at hj
    cases hj
    rfl
  rw [listCycles, List.sum_eq_card_nsmul _ _ hsame]
  simp

/-- In segment `k` of an INIT (R106). -/
theorem currentSegment_init {s : State} (h : Legal s) (ho : s.op = .init) :
    currentSegment s = some (.hold (decide (s.seg.toNat < 2)) (decide (s.seg.toNat % 2 = 1)) .half) := by
  have hseg := h.busySeg (by simp [ho])
  rw [ho, prog_init_length] at hseg
  rw [currentSegment, ho, prog_init_getElem?, if_pos hseg]

/-- `k` half periods and `r` cycles after its start, an INIT is in segment `k` (R159). -/
theorem Underway.seg_of_init {a s : State} {k r n H : Nat} (h : Underway a n s) (ho : s.op = .init)
    (hH : H = halfcyc s.par s.freq.toNat) (hr : r < H) (hn : n + (k * H + r) = 268 * H) : s.seg.toNat = k := by
  have hc := currentSegment_init h.legal ho
  have hseg := h.legal.busySeg (by simp [ho])
  have hbound : s.tcnt.toNat < H := hH ▸ h.timed _ _ _ hc
  have hleft := h.left
  rw [cyclesLeft, segCyclesLeft_hold hc, cyclesAfter, ho, listCycles_drop_init, ← hH] at hleft
  rw [ho, prog_init_length] at hseg
  have hsplit : 268 * H = (268 - (s.seg.toNat + 1)) * H + (s.seg.toNat * H + H) := by
    rw [← Nat.succ_mul, ← Nat.add_mul]; congr 1; omega
  have hplace : k * H + r = s.seg.toNat * H + (H - 1 - s.tcnt.toNat) := by omega
  have hdiv (j x : Nat) (hx : x < H) : (j * H + x) / H = j := by
    rw [Nat.mul_comm, Nat.mul_add_div (by omega), Nat.div_eq_of_lt hx, Nat.add_zero]
  rw [← hdiv k r hr, hplace, hdiv _ _ (by omega)]

/-- Settles O56: an INIT has 268 segments of one half period each. -/
theorem initDuration : Obligations.InitDuration := by
  unfold Obligations.InitDuration
  intro s first ins hl ho hr hh hcalm hlen
  obtain ⟨hway, t, ht, hend⟩ := hl.run_of_command (op := .init) (by decide) ho hr hh (fun _ => rfl)
    (fun inp hi => ⟨hcalm inp hi, by simp⟩) (hlen.trans (listCycles_init _ _).symm)
  rw [accepted_eq (by decide)] at hway hend
  refine ⟨fun k r hk hrH => ?_, t, by rw [← hlen, ht], hend.op, by simp [hend.initd], ?_, ?_, hend.frame rfl,
    hend.si, hend.sclk, by simp [hend.fvalid], hend.fnoinit⟩
  · have hfit : k * halfcyc s.par s.freq.toNat + r < 268 * halfcyc s.par s.freq.toNat := by
      calc _ < (k + 1) * halfcyc s.par s.freq.toNat := by rw [Nat.succ_mul]; omega
        _ ≤ 268 * halfcyc s.par s.freq.toNat := Nat.mul_le_mul_right _ hk
    obtain ⟨u, hu, hwayu⟩ := hway (k * halfcyc s.par s.freq.toNat + r) (by omega)
    have hop : u.op = .init := hwayu.op
    have hseg : u.seg.toNat = k := hwayu.seg_of_init hop (by rw [hwayu.par, hwayu.freq]) hrH (by omega)
    obtain ⟨hsi, hck⟩ := hwayu.legal.lines_of_hold (currentSegment_init hwayu.legal hop)
    refine ⟨u, by rw [Nat.add_assoc, hu], hop, hseg, ?_, ?_⟩
    · rw [hsi, hseg]
    · rw [hck, hseg]
  · exact BitVec.eq_of_toNat_eq (hend.risecnt.trans risingEdges_init)
  · exact BitVec.eq_of_toNat_eq (hend.sampcnt.trans sampleCount_init)

/-- Settles O57: a CAPTURE runs for the cycles of its program and ends with its counts. -/
theorem captureDuration : Obligations.CaptureDuration := by
  unfold Obligations.CaptureDuration
  intro s first ins hl ho hr hh hcalm hlen
  obtain ⟨hway, t, ht, hend⟩ := hl.run_of_command (op := .capture) (by decide) ho hr hh (fun _ => rfl)
    (fun inp hi => ⟨(hcalm inp hi).1, fun _ => (hcalm inp hi).2⟩) (hlen.trans (listCycles_capture _ _).symm)
  rw [accepted_eq (by decide)] at hway hend
  have hvalid : t.fvalid = true := by simp [hend.fvalid]
  refine ⟨fun n hn => ?_, t, ht, hend.op, ?_, ?_, hvalid, hend.fnoinit, by simp [hend.initd],
    (hend.legal.frameValid hvalid).2, hend.si, hend.sclk⟩
  · obtain ⟨u, hu, hwayu⟩ := hway n hn
    exact ⟨u, hu, hwayu.op⟩
  · exact BitVec.eq_of_toNat_eq (hend.risecnt.trans risingEdges_capture)
  · exact BitVec.eq_of_toNat_eq (hend.sampcnt.trans sampleCount_capture)

end Sys2Proof.Machine
end

section
/-!
PROOFS. The operations (R106..R109, R112, R116, R117): NOP, CLRERR and the reserved CMD encodings, the waveform programs
segment by segment, and what POS.SUB says of the current segment.
-/

namespace Sys2Proof.Machine

/-! ## Commands (R112, R116, R117) -/

theorem exec_nop (s : State) : exec .nop s = .next s := rfl

theorem exec_clrerr (s : State) : exec .clrerr s = .next (clearErrors s) := rfl

theorem exec_illCmd (d : Word) (s : State) : exec (.illCmd d) s = .next (raiseHostError .rsvdCmd s) := rfl

/-- The host's part of a cycle that presents NOP (R116). -/
theorem hostPart_nop (s : State) : hostPart (.txn ⟨true, 0x00, 0⟩) s = hostPart .idle s := by
  rw [hostPart_presented rfl, decode_word]; rfl

/-- The host lane enters a cycle through the host's part alone (R102). -/
theorem runCycle_congr_host {inp : CycleInput} {h : HostLane} {s : State} (hh : hostPart inp.host s = hostPart h s) :
    runCycle inp s = runCycle { inp with host := h } s := by
  simp only [runCycle, hh]; rfl

/-- After CLRERR the next rejected transaction is a first error (R117, R134). -/
theorem raiseHostError_clearErrors (c : ErrCause) (s : State) :
    raiseHostError c (clearErrors s) = { s with err := true, errovf := false, errcause := c } := rfl

/-- Settles O14: NOP leaves the host's part of its cycle as it is without a transaction. -/
theorem nopChangesNothing : Obligations.NopChangesNothing := by
  unfold Obligations.NopChangesNothing
  refine ⟨by decide, by decide, exec_nop, fun s inp hh => runCycle_congr_host ?_⟩
  rw [hh, hostPart_nop]

/-- Settles O20: CLRERR is `clearErrors()`. -/
theorem clrerrClearsErrors : Obligations.ClrerrClearsErrors := by
  unfold Obligations.ClrerrClearsErrors
  exact ⟨by decide, fun s => ⟨exec_clrerr s, fun c => ⟨_, exec_clrerr s, raiseHostError_clearErrors c s⟩⟩⟩

/-- Settles O21: OPC from 4 on or RSVD not 0 is a word from 4 on, which no command has. -/
theorem reservedCommandRecordsRsvdCmd : Obligations.ReservedCommandRecordsRsvdCmd := by
  unfold Obligations.ReservedCommandRecordsRsvdCmd
  intro s d hd
  have hge : 4 ≤ d.toNat := by omega
  refine ⟨?_, by rw [exec_illCmd, raiseHostError_eq]⟩
  rw [decode_txnWord]
  exact decodeCmd_of_ge hge

/-! ## The waveform programs (R106..R108) -/

/-- Settles O33: the segments of INIT. -/
theorem initProgramSegments : Obligations.InitProgramSegments := prog_init_getElem?

/-- Settles O34: the second pass begins at segment 269, where the parity of a segment's index turns over. -/
theorem captureProgramSegments : Obligations.CaptureProgramSegments := by
  unfold Obligations.CaptureProgramSegments
  intro k
  rw [prog_capture_getElem?, prog_init_getElem?, capturePass_getElem?]
  rcases lt_trichotomy k 268 with hprime | rfl | hpass
  · simp only [if_pos hprime]
  · rfl
  · obtain ⟨j, rfl⟩ : ∃ j, k = j + 269 := ⟨k - 269, by omega⟩
    have hpixel : j + 269 - 275 = j - 6 := by omega
    have hparity : (j + 269) % 2 = 0 ↔ j % 2 = 1 := by omega
    simp only [if_neg hpass.ne', Nat.add_sub_cancel, hpixel, hparity, ← Nat.lt_sub_iff_add_lt, Nat.reduceSub,
      Nat.not_lt_zero, if_false]

/-- Settles O35: `adc_start_o` is high in the request phase of a sample segment, which pass 2 alone has. -/
theorem samplesOnlyInPassTwo : Obligations.SamplesOnlyInPassTwo := by
  unfold Obligations.SamplesOnlyInPassTwo
  exact ⟨fun _ _ _ => prog_getElem?_eq_sample, adcStart_iff⟩

/-! ## POS.SUB (R109) -/

/-- The SUB that R109 gives a segment. -/
def subOf : Segment → Nat
  | .hold _ ck .half => if ck then 1 else 0
  | .hold _ _ .settle => 3
  | .sample _ => 2

/-- SUB of a half period whose sensor clock is high where `n` is 1. -/
theorem subOf_half (si : Bool) {p : Prop} [Decidable p] {n : Nat} (hn : n < 2) (hp : p ↔ n = 1) :
    subOf (.hold si (decide p) .half) = n := by
  simp only [subOf, decide_eq_true_eq, hp]
  split_ifs <;> omega

/-- In INIT the even segments are the low halves. -/
theorem posFields_init_sub (k : Nat) : (posFields .init k).sub = k % 2 := by
  unfold posFields
  split_ifs <;> simp only <;> omega

/-- SUB over the parts of CAPTURE; in the second pass the odd segments are the low halves. -/
theorem posFields_capture_sub (k : Nat) : (posFields .capture k).sub =
    if k < 268 then k % 2 else if k = 268 then 3 else if k < 275 then (k + 1) % 2
    else if k < 659 then (k - 275) % 3 else (k + 1) % 2 := by
  unfold posFields
  split_ifs <;> simp only <;> omega

/-- Sample(i) is in the P2_PIXELS row, with PCNT i. -/
theorem posFields_sample (i : Pixel) : posFields .capture (277 + 3 * i.val) = ⟨.p2Pixels, i.val, 2⟩ := by
  have hi := i.isLt
  simp (disch := omega) only [posFields, if_neg, if_pos]
  rw [PosFields.mk.injEq]
  exact ⟨rfl, by omega, by omega⟩

/-- SUB as a function of SEG is SUB of the segment at SEG (R109). -/
theorem map_subOf_prog_getElem? {op : Op} {k : Nat} (h : k < (prog op).length) :
    (prog op)[k]?.map subOf = some (posFields op k).sub := by
  cases op with
  | none => simp at h
  | init =>
    rw [prog_init_length] at h
    rw [prog_init_getElem?, posFields_init_sub, if_pos h]
    exact congrArg some (subOf_half _ (by omega) (by omega))
  | capture =>
    rw [prog_capture_length] at h
    rw [captureProgramSegments, posFields_capture_sub]
    split_ifs with hprime hsettle hstart hpixel hphase
    · exact congrArg some (subOf_half _ (by omega) (by omega))
    · rfl
    · exact congrArg some (subOf_half _ (by omega) (by omega))
    · exact congrArg some hphase.symm
    · exact congrArg some (subOf_half _ (by omega) (by omega))
    · exact congrArg some (subOf_half _ (by omega) (by omega))

theorem posFields_sub_of_segment {op : Op} {k : Nat} {g : Segment} (h : (prog op)[k]? = some g) :
    (posFields op k).sub = subOf g := by
  have hsub := map_subOf_prog_getElem? (List.getElem?_eq_some_iff.mp h).1
  rw [h] at hsub
  exact (Option.some_inj.mp hsub).symm

/-- Settles O36: SUB is that of the segment, and a sample segment is in the P2_PIXELS row. -/
theorem subNamesTheSegmentKind : Obligations.SubNamesTheSegmentKind := by
  unfold Obligations.SubNamesTheSegmentKind
  refine fun op k => ⟨fun _ _ h => posFields_sub_of_segment h, fun _ _ h => posFields_sub_of_segment h, fun i h => ?_⟩
  obtain ⟨rfl, rfl⟩ := prog_getElem?_eq_sample.mp h
  rw [posFields_sample]
  exact ⟨rfl, rfl, rfl⟩

end Sys2Proof.Machine
end

section
/-!
PROOFS. The register accesses (R109, R118..R130): POS by the table of its rows, the reads of the state elements, the words
that read 0, and the error an illegal write records.
-/

namespace Sys2Proof.Machine

/-! ## POS (R49, R109, R125) -/

/-- A field put at bit `n`, above all bits of the word it joins, adds its value times `2 ^ n`. -/
theorem toNat_or_shiftLeft {x y : Word} {a b n : Nat} (hx : x.toNat = a) (hy : y.toNat = b) (ha : a < 2 ^ n)
    (hb : b * 2 ^ n < 2 ^ 32) : (x ||| y <<< n).toNat = a + b * 2 ^ n := by
  rw [BitVec.toNat_or, BitVec.toNat_shiftLeft, hx, hy, Nat.shiftLeft_eq, Nat.mod_eq_of_lt hb, Nat.or_comm,
    Nat.mul_comm, ← Nat.two_pow_add_eq_or_of_lt ha, Nat.add_comm]

theorem exec_rdPos (s : State) : exec .rdPos s = .next (driveRdata (posWord s) s) := rfl

theorem posWord_idle {s : State} (ho : s.op = .none) : posWord s = 0 := by
  simp only [posWord, ho]

/-- POS while a sequence runs, put together from its fields (R125). -/
theorem posWord_running {s : State} (ho : s.op ≠ .none) {b : PosBlock} {pcnt sub : Nat}
    (hf : posFields s.op s.seg.toNat = ⟨b, pcnt, sub⟩) : posWord s =
      s.seg.setWidth 32 ||| (blockCode b).setWidth 32 <<< 12 ||| BitVec.ofNat 32 pcnt <<< 16
        ||| BitVec.ofNat 32 sub <<< 24 := by
  unfold posWord
  split
  case h_1 hidle => exact absurd hidle ho
  case h_2 => rw [hf]

/-- Where PCNT and SUB have 8 bits at most, no field of POS reaches into the next one (R49). -/
theorem posWord_toNat {s : State} (ho : s.op ≠ .none) {b : PosBlock} {pcnt sub : Nat}
    (hf : posFields s.op s.seg.toNat = ⟨b, pcnt, sub⟩) (hp : pcnt < 2 ^ 8) (hs : sub < 2 ^ 8) :
    (posWord s).toNat = s.seg.toNat + (blockCode b).toNat * 2 ^ 12 + pcnt * 2 ^ 16 + sub * 2 ^ 24 := by
  have hseg : (s.seg.setWidth 32).toNat = s.seg.toNat := BitVec.toNat_setWidth_of_le (by decide)
  have hcode : ((blockCode b).setWidth 32).toNat = (blockCode b).toNat := BitVec.toNat_setWidth_of_le (by decide)
  have hpcnt : (BitVec.ofNat 32 pcnt).toNat = pcnt := by rw [BitVec.toNat_ofNat]; omega
  have hsub : (BitVec.ofNat 32 sub).toNat = sub := by rw [BitVec.toNat_ofNat]; omega
  have hseglt := s.seg.isLt
  have hcodelt := (blockCode b).isLt
  have h12 := toNat_or_shiftLeft (n := 12) hseg hcode (by omega) (by omega)
  have h16 := toNat_or_shiftLeft (n := 16) h12 hpcnt (by omega) (by omega)
  rw [posWord_running ho hf]
  exact toNat_or_shiftLeft h16 hsub (by omega) (by omega)

/-- Settles O31: `posFields` follows the rows of R109, and no field reaches into the next one. -/
theorem posFieldsRead : Obligations.PosFieldsRead := by
  unfold Obligations.PosFieldsRead
  refine ⟨by decide, fun s => ⟨driveRdata (posWord s) s, exec_rdPos s, rfl, posWord_idle, ?_⟩⟩
  intro block pcnt sub hrow
  have ho : s.op ≠ .none := by
    intro hidle
    simp [hidle] at hrow
  have hp : pcnt < 2 ^ 8 := by omega
  have hs : sub < 2 ^ 8 := by omega
  have hfields : ∃ b, (blockCode b).toNat = block ∧ posFields s.op s.seg.toNat = ⟨b, pcnt, sub⟩ := by
    refine ⟨(posFields s.op s.seg.toNat).block, ?_⟩
    rcases hrow with ⟨hop, hseg, hrest⟩ | ⟨hop, hlow, hhigh, hrest⟩ | ⟨hop, hseg, hrest⟩ | ⟨hop, hlow, hhigh, hrest⟩ |
      ⟨hop, hseg, hrest⟩ | ⟨hop, hlow, hhigh, hrest⟩ | ⟨hop, hlow, hhigh, hrest⟩ | ⟨hop, hlow, hhigh, hrest⟩ |
      ⟨hop, hlow, hhigh, hrest⟩
    all_goals simp (disch := omega) [posFields, hop, if_pos, if_neg, blockCode, hrest]
  obtain ⟨b, rfl, hf⟩ := hfields
  exact posWord_toNat ho hf hp hs

/-! ## Reads of state elements (R120, R124, R126, R127) -/

theorem exec_rdFreq (s : State) : exec .rdFreq s = .next (driveRdata (freqWord s) s) := rfl

theorem exec_rdRisecnt (s : State) : exec .rdRisecnt s = .next (driveRdata (risecntWord s) s) := rfl

theorem exec_rdSampcnt (s : State) : exec .rdSampcnt s = .next (driveRdata (sampcntWord s) s) := rfl

theorem exec_rdErrcause (s : State) : exec .rdErrcause s = .next (driveRdata (errcauseWord s) s) := rfl

@[simp] theorem freqWord_toNat (s : State) : (freqWord s).toNat = s.freq.toNat :=
  BitVec.toNat_setWidth_of_le (by decide)

@[simp] theorem risecntWord_toNat (s : State) : (risecntWord s).toNat = s.risecnt.toNat :=
  BitVec.toNat_setWidth_of_le (by decide)

@[simp] theorem sampcntWord_toNat (s : State) : (sampcntWord s).toNat = s.sampcnt.toNat :=
  BitVec.toNat_setWidth_of_le (by decide)

@[simp] theorem errcauseWord_toNat (s : State) : (errcauseWord s).toNat = (causeCode s.errcause).toNat :=
  BitVec.toNat_setWidth_of_le (by decide)

/-- Settles O25: each element fits the word it is read in. -/
theorem elementReadsAreZeroExtended : Obligations.ElementReadsAreZeroExtended := by
  unfold Obligations.ElementReadsAreZeroExtended
  rintro s i n (⟨rfl, rfl⟩ | ⟨rfl, rfl⟩ | ⟨rfl, rfl⟩)
  · exact ⟨_, exec_rdFreq s, freqWord_toNat s, rfl⟩
  · exact ⟨_, exec_rdRisecnt s, risecntWord_toNat s, rfl⟩
  · exact ⟨_, exec_rdSampcnt s, sampcntWord_toNat s, rfl⟩

/-- The codes of R132 end at 4. -/
theorem causeCode_toNat_le (c : ErrCause) : (causeCode c).toNat ≤ 4 := by
  cases c <;> decide

/-- No two causes have the same code (R132). -/
theorem causeCode_toNat_inj {c d : ErrCause} : (causeCode c).toNat = (causeCode d).toNat ↔ c = d := by
  cases c <;> cases d <;> decide

/-- Settles O26: the code read names its cause, as no two causes share one. -/
theorem errcauseReadsCauseCode : Obligations.ErrcauseReadsCauseCode := by
  unfold Obligations.ErrcauseReadsCauseCode
  intro s
  refine ⟨driveRdata (errcauseWord s) s, exec_rdErrcause s, rfl, ?_⟩
  rw [driveRdata_hRdata, errcauseWord_toNat]
  exact ⟨causeCode_toNat_le _, causeCode_toNat_inj (d := .none), causeCode_toNat_inj (d := .cmdBusy),
    causeCode_toNat_inj (d := .rsvdCmd), causeCode_toNat_inj (d := .wrRo), causeCode_toNat_inj (d := .unmapped)⟩

/-! ## Words that read 0 (R119, R129) -/

theorem exec_rdCmd (s : State) : exec .rdCmd s = .next (driveRdata 0 s) := rfl

theorem exec_rdRsvd (wa : WordAddr) (s : State) : exec (.rdRsvd wa) s = .next (driveRdata 0 s) := rfl

/-- BusRead of an address is what the transaction decoded from it drives (R20). -/
theorem busRead_of_exec {wa : WordAddr} {s : State} {v : Word} (h : exec (decodeRead wa) s = .next (driveRdata v s)) :
    busRead wa s = v := by
  rw [exec_decodeRead] at h
  exact congrArg State.hRdata (Host.Outcome.next.inj h)

/-- Settles O23: the decoder looks at the address alone, and CMD reads 0. -/
theorem cmdReadsZero : Obligations.CmdReadsZero := by
  unfold Obligations.CmdReadsZero
  exact ⟨by decide, fun s d => ⟨decode_txnWord false 0x00 d, busRead_of_exec (exec_rdCmd s), exec_rdCmd s⟩⟩

theorem decodeRead_reserved {wa : WordAddr} (hlow : 9 ≤ wa.toNat) (hhigh : wa.toNat ≤ 0x7F) :
    decodeRead wa = .rdRsvd wa :=
  (decodeRead_of_ge hlow).trans (if_neg (by omega))

/-- The canonical word of RD_RSVD (R129). -/
theorem encode_rdRsvd (wa : WordAddr) : encode (.rdRsvd wa) = BitVec.ofNat 41 (wa.toNat * 0x100000000) := by
  simp [encode, Instr.txn, Machine.Txn.word, txnWord]

/-- Settles O24: a reserved address leads the decoder to RD_RSVD. -/
theorem reservedWordsReadZero : Obligations.ReservedWordsReadZero := by
  unfold Obligations.ReservedWordsReadZero
  intro s wa hlow hhigh
  have hdecode := decodeRead_reserved hlow hhigh
  refine ⟨encode_rdRsvd wa, ?_, busRead_of_exec ?_, exec_rdRsvd wa s⟩
  · rw [← encode_rdRsvd, encode, decode_word]
    exact hdecode
  · rw [hdecode, exec_rdRsvd]

/-! ## The illegal register write (R130) -/

theorem exec_illWr (wa : WordAddr) (d : Word) (s : State) :
    exec (.illWr wa d) s = .next (raiseHostError (wrCause wa) s) := rfl

/-- The reserved addresses lie between the read-only registers and FRAME (R59, R130). -/
theorem wrCause_eq (wa : WordAddr) :
    wrCause wa = if wa.toNat ≤ 8 then .wrRo else if wa.toNat ≤ 0x7F then .unmapped else .wrRo := by
  simp only [wrCause, reservedAddr_iff]
  split_ifs with hreserved hlow hhigh
  any_goals rfl
  all_goals omega

/-- Settles O22: the write is recorded as any rejected transaction is, with the cause of its address. -/
theorem illegalWriteRecordsCauseByAddress : Obligations.IllegalWriteRecordsCauseByAddress := by
  unfold Obligations.IllegalWriteRecordsCauseByAddress
  intro s wa d hwa
  refine ⟨?_, by rw [exec_illWr, raiseHostError_eq, wrCause_eq]⟩
  rw [decode_txnWord]
  exact decodeWrite_of_ge hwa d

end Sys2Proof.Machine
end

section
/-!
PROOFS. The exceptions (R130..R135, R144): what an idle block keeps, a rejected transaction is precise, and the error elements
outlast every cycle but CLRERR and reset.
-/

namespace Sys2Proof.Machine

/-! ## An idle block without a transaction (R144) -/

/-- Settles O11: no sequencer's part runs, and the host's part puts `h_rdata` to 0. -/
theorem idleBlockKeepsState : Obligations.IdleBlockKeepsState := by
  unfold Obligations.IdleBlockKeepsState
  intro s ho hr hidle
  rw [stepWithoutTransactionRunsSequencer s _ rfl hr hidle, if_pos ho, andThen_of_next]

/-! ## The rejected writes (R112, R130) -/

theorem exec_decodeWrite_busy {d : Word} (hd : d = 1 ∨ d = 2) {s : State} (ho : s.op ≠ .none) :
    exec (decodeWrite 0 d) s = .next (raiseHostError .cmdBusy s) := by
  rcases hd with rfl | rfl
  · exact congrArg Host.Outcome.next (command_busy (op := .init) ho)
  · exact congrArg Host.Outcome.next (command_busy (op := .capture) ho)

theorem exec_decodeWrite_reserved {d : Word} (hd : 4 ≤ d.toNat) (s : State) :
    exec (decodeWrite 0 d) s = .next (raiseHostError .rsvdCmd s) :=
  congrArg (exec · s) (decodeCmd_of_ge hd)

theorem exec_decodeWrite_illegal {wa : WordAddr} (hwa : 2 ≤ wa.toNat) (d : Word) (s : State) :
    exec (decodeWrite wa d) s = .next (raiseHostError (wrCause wa) s) := by
  rw [decodeWrite_of_ge hwa, exec_illWr]

theorem hostPart_write {inp : CycleInput} {u : Txn} (hh : inp.host = .txn u) (hwe : u.we = true) (s : State) :
    hostPart inp.host s = exec (decodeWrite u.wa u.data) (driveRdata 0 s) := by
  rw [hostPart_txn hh, decode_word, if_pos hwe]

/-! ## A rejection is precise (R134) -/

/-- The sequencer's part goes the same way whatever the error elements hold, and leaves them (R103). -/
theorem sequencer_error_elements {done : Bool} {data : Word} {s b : State} (h : sequencer done data s = .next b)
    (e ov : Bool) (c : ErrCause) :
    sequencer done data { s with err := e, errovf := ov, errcause := c } =
      .next { b with err := e, errovf := ov, errcause := c } := by
  obtain ⟨-, -, -, -, -, hdata, -⟩ := sequencer_keeps_host_elements h
  rw [sequencer_host_elements done data s e ov c s.hRdata, h, andThen_of_next, hdata]

/-- Where the host's part writes the error elements alone, so does its cycle: the sequencer's part does not read them (R103). -/
theorem runCycle_of_error_elements {inp : CycleInput} {s b : State} {e ov : Bool} {c : ErrCause} (hr : inp.rst = false)
    (hhost : hostPart inp.host s = .next { driveRdata 0 s with err := e, errovf := ov, errcause := c })
    (hb : runCycle { inp with host := .idle } s = .next b) :
    runCycle inp s = .next { b with err := e, errovf := ov, errcause := c } := by
  by_cases ho : s.op = .none
  · rw [runCycle_idle (inp := { inp with host := .idle }) (a := driveRdata 0 s) hr ho rfl] at hb
    injection hb with hb
    rw [runCycle_idle hr ho hhost, ← hb]; rfl
  · rw [runCycle_running (inp := { inp with host := .idle }) (a := driveRdata 0 s) hr ho rfl, andThen_next] at hb
    obtain ⟨b', hseq, hb⟩ := hb
    injection hb with hb
    rw [runCycle_running hr ho hhost, sequencer_error_elements hseq, andThen_of_next, ← hb]; rfl

/-- Settles O42: each of the four rejected writes records its cause and does nothing else. -/
theorem rejectionIsPrecise : Obligations.RejectionIsPrecise := by
  unfold Obligations.RejectionIsPrecise
  intro s b inp u c hr hh hcause hb
  have hreject : hostPart inp.host s = .next (raiseHostError c (driveRdata 0 s)) := by
    rcases hcause with ⟨hwe, hwa, hd, ho, rfl⟩ | ⟨hwe, hwa, hd, rfl⟩ | ⟨hwe, hlow, hrange, rfl⟩ | ⟨hwe, hlow, hhigh, rfl⟩
    · rw [hostPart_write hh hwe, hwa, exec_decodeWrite_busy hd (by simpa using ho)]
    · rw [hostPart_write hh hwe, hwa, exec_decodeWrite_reserved hd]
    · have hcode : wrCause u.wa = .wrRo := if_neg (by rw [reservedAddr_iff]; omega)
      rw [hostPart_write hh hwe, exec_decodeWrite_illegal hlow, hcode]
    · have hcode : wrCause u.wa = .unmapped := if_pos ((reservedAddr_iff u.wa).mpr ⟨hlow, hhigh⟩)
      rw [hostPart_write hh hwe, exec_decodeWrite_illegal (by omega), hcode]
  rw [raiseHostError_eq] at hreject
  exact runCycle_of_error_elements hr hreject hb

/-! ## What clears the error elements (R135) -/

/-- The decoder finds CLRERR in its one word alone (R77, R117). -/
theorem decode_word_eq_clrerr {u : Txn} (h : decode u.word = .clrerr) : u.we = true ∧ u.wa = 0 ∧ u.data = 3 := by
  rw [decode_word] at h
  split_ifs at h with hwe
  · have htxn := (decodeWrite_txn u.wa u.data).symm.trans (congrArg Instr.txn h)
    exact ⟨hwe, congrArg Txn.wa htxn, congrArg Txn.data htxn⟩
  · have htxn := (decodeRead_txn u.wa).symm.trans (congrArg Instr.txn h)
    cases congrArg Txn.we htxn

/-- Without CLRERR the host's part keeps a recorded error, its first cause and its overflow (R134). -/
theorem hostPart_keeps_error {h : HostLane} {s a : State} (hh : hostPart h s = .next a) (herr : s.err = true)
    (hclrerr : ∀ u : Txn, presented h = .next (some u) → ¬ (u.we = true ∧ u.wa = 0 ∧ u.data = 3)) :
    a.err = true ∧ a.errcause = s.errcause ∧ (s.errovf = true → a.errovf = true) := by
  rcases hostPart_cases hh with ⟨-, rfl⟩ | ⟨u, hu, he⟩
  · exact ⟨herr, rfl, id⟩
  · obtain ⟨b, hb, hcases⟩ := exec_cases (decode u.word) (driveRdata 0 s)
    obtain rfl : b = a := Host.Outcome.next.inj (hb.symm.trans he)
    rcases hcases with rfl | ⟨op, -, rfl⟩ | ⟨hd, -⟩ | ⟨d, -, rfl⟩ | ⟨c, -, rfl⟩ | ⟨v, -, rfl⟩
    · exact ⟨herr, rfl, id⟩
    · by_cases ho : s.op = .none
      · rw [command_idle (by simpa using ho)]
        simp [accept, herr]
      · rw [command_busy (by simpa using ho)]
        simp [herr]
    · exact absurd (decode_word_eq_clrerr hd) (hclrerr u hu)
    · exact ⟨herr, rfl, id⟩
    · simp [herr]
    · exact ⟨herr, rfl, id⟩

/-- Settles O47: the host's part keeps a recorded error, and the sequencer's part writes no error element. -/
theorem errorsClearedOnlyByClrerrOrReset : Obligations.ErrorsClearedOnlyByClrerrOrReset := by
  unfold Obligations.ErrorsClearedOnlyByClrerrOrReset
  intro s t hst herr hr hclrerr
  rcases step_cases hst with ⟨hr', -⟩ | ⟨-, -, a, ha, rfl⟩ | ⟨-, -, a, b, ha, hb, rfl⟩
  · simp [hr] at hr'
  · rw [elapse_err, elapse_errovf, elapse_errcause]
    exact hostPart_keeps_error ha herr hclrerr
  · obtain ⟨-, herr', hovf', hcause', -⟩ := sequencer_keeps_host_elements hb
    rw [elapse_err, elapse_errovf, elapse_errcause, herr', hovf', hcause']
    exact hostPart_keeps_error ha herr hclrerr

end Sys2Proof.Machine
end

section
/-!
PROOFS. Hazards of the host's timing (R152): a command that meets a running sequence.
-/

namespace Sys2Proof.Machine

/-- Settles O17: either command is the same rejection while OP is not NONE, and recording the error writes the error elements
alone (R134). -/
theorem commandWhileBusyRejected : Obligations.CommandWhileBusyRejected := by
  unfold Obligations.CommandWhileBusyRejected
  intro s i ho hi
  have hreject : exec i s = .next (raiseHostError .cmdBusy s) := by
    rcases hi with rfl | rfl
    · exact exec_decodeWrite_busy (d := 1) (.inl rfl) ho
    · exact exec_decodeWrite_busy (d := 2) (.inr rfl) ho
  rw [hreject, raiseHostError_eq]

end Sys2Proof.Machine
end
